-- ==== Sys2Proof/Word.lean ====
section
/-! DEFINITION. The value types of AES128E: bytes, 32-bit words, keys, blocks, format-U words and
the port values of format H (spec R9, R20, R21, R81, R83). Every value is unsigned. -/

namespace Sys2Proof

/-- A byte: an unsigned 8-bit value (R9). -/
abbrev Byte := BitVec 8

/-- A word: an unsigned 32-bit value (R9). -/
abbrev Word := BitVec 32

/-- A Key: 4 ordered 32-bit words (R16, R21). -/
abbrev Key := Vector Word 4

/-- A 16-byte block in buffer order, byte `i` being row `i mod 4`, column `i div 4` of the matrix
(R11, R20, R54). -/
abbrev Block := Vector Byte 16

/-- The value on one 128-bit data port (R27). -/
abbrev Port := BitVec 128

/-- A micro-operation word of format U (R83). -/
abbrev UopWord := BitVec 8

/-- A format-H word: what the host holds on the core's input ports at one step (R27, R81). The
port `clk` is not a field: a step of the model is a rising edge of it (R17). -/
structure HostWord where
  rst : Bool
  start : Bool
  key_in : Port
  pt_in : Port
  deriving DecidableEq, Repr

end Sys2Proof
end

