-- ==== Sys2Proof/Machine/Operands.lean ====
section
/-! DEFINITION. Byte order, the matrix view of a block and the packing of the 128-bit ports (spec
R10, R11, R53 to R56): how a format-H operand becomes a register and a register becomes a port
value. Format U's only operand is the 4-bit index `k`, used as is (R84). -/

namespace Sys2Proof.Machine

/-- `byte(W, j) = W[31-8j : 24-8j]`; byte 0 is the most significant (R10, R53). -/
def byteOf (w : Word) (j : Fin 4) : Byte := w.extractLsb' (24 - 8 * j.val) 8

/-- `word(b0, b1, b2, b3) = b0 || b1 || b2 || b3` (R10). -/
def wordOf (b0 b1 b2 b3 : Byte) : Word := b0 ++ b1 ++ b2 ++ b3

/-- The buffer index of row `r`, column `c`: column-major (R11, R54). -/
def matrixIndex (r c : Fin 4) : Fin 16 := ⟨r.val + 4 * c.val, by omega⟩

/-- The row of buffer index `i`: `i mod 4` (R11). -/
def rowOf (i : Fin 16) : Fin 4 := ⟨i.val % 4, by omega⟩

/-- The column of buffer index `i`: `i div 4` (R11). -/
def colOf (i : Fin 16) : Fin 4 := ⟨i.val / 4, by omega⟩

/-- `s(r,c) = S[r + 4c]` (R11). -/
def cell (b : Block) (r c : Fin 4) : Byte := b[matrixIndex r c]

/-- The block whose matrix entry at row `r`, column `c` is `f r c` (R11). -/
def blockOfCells (f : Fin 4 → Fin 4 → Byte) : Block :=
  Vector.ofFn fun i => f (rowOf i) (colOf i)

/-- Column `c` of a block read as a big-endian word (R54). -/
def columnWord (b : Block) (c : Fin 4) : Word :=
  wordOf (cell b 0 c) (cell b 1 c) (cell b 2 c) (cell b 3 c)

/-- `fromrows(L)`: the state with `s(r,c) = L[4r + c]` (R11). -/
def fromRows (l : Block) : Block := blockOfCells fun r c => l[4 * r.val + c.val]

/-- `matrows(S)`: the list `L` with `L[4r + c] = s(r,c)` (R11). -/
def matRows (b : Block) : Block :=
  Vector.ofFn fun i => cell b ⟨i.val / 4, by omega⟩ ⟨i.val % 4, by omega⟩

/-- Key byte `j` is `byte(KIN[j div 4], j mod 4)` (R55). -/
def keyByte (k : Key) (j : Fin 16) : Byte := byteOf k[colOf j] (rowOf j)

/-- The Key on port `key_in`: word `w` is bits `127-32w : 96-32w` (R56, R161). -/
def keyOfPort (p : Port) : Key :=
  Vector.ofFn fun w : Fin 4 => p.extractLsb' (96 - 32 * w.val) 32

/-- The block on port `pt_in`: byte `i` is bits `127-8i : 120-8i` (R56, R161). -/
def blockOfPort (p : Port) : Block :=
  Vector.ofFn fun i : Fin 16 => p.extractLsb' (120 - 8 * i.val) 8

/-- The port value of a block, `pack`: byte `i` in bits `127-8i : 120-8i` (R56, R167). -/
def packBlock (b : Block) : Port :=
  columnWord b 0 ++ columnWord b 1 ++ columnWord b 2 ++ columnWord b 3

/-- The port value of a Key: `K[0] || K[1] || K[2] || K[3]` (R56, R155). -/
def packKey (k : Key) : Port := k[0] ++ k[1] ++ k[2] ++ k[3]

end Sys2Proof.Machine
end

