-- ==== Sys2Proof/Machine/State.lean ====
section
/-! DEFINITION. The state of AES128E (spec file 10_state.md), the reasons a step can stop, and the
state after RESET (R32). The constant tables are no state (R30): they are in Machine/Tables.lean.
The hardware has no writable memory (R13, R30). -/

namespace Sys2Proof.Machine

/-- The sequencer's phase register: `IDLE` = 0, `RUN` = 1 (R23). -/
inductive Phase where
  | idle
  | run
  deriving DecidableEq, Repr

/-- The registers an operation reads that may hold `⊥` (R176). -/
inductive Reg where
  | S
  | KIN
  | RK (k : Nat)
  deriving DecidableEq, Repr

/-- What stops the machine as a fault. -/
inductive Fault where
  /-- `fault(read_of_no_value)` of R196 (d): raised by a meaning that reads a register holding `⊥`
  (R12, D12, U6). Unreachable in the machine of R167 (R176). Safe: the spec itself gives such a read
  this fault and no value. -/
  | readOfNoValue (r : Reg)
  deriving DecidableEq, Repr

/-- What the model gives no meaning. All but `notModelled` are the refusals of R196. -/
inductive Refusal where
  /-- Raised by an arm of exec that has no meaning yet; no arm of this model is left so. Safe. -/
  | notModelled (mnemonic : String)
  /-- R196 (a): the step fetched a format-U word that R88 reserves. Unreachable, since UPROG holds
  none. Safe. -/
  | reservedUop (u : UopWord)
  /-- R196 (b): `upc` in 52..63, or `upc != 0` with `phase = IDLE`; raised by the step and by every
  meaning but RESET's. Unreachable. Safe. -/
  | badUpc
  /-- R196 (c): a table or register index outside its range (`RCON` 10 and above, `RK` 11 and
  above, or the indices -1 of KEXP 0); raised by KEXP and ARK on an ill-formed `k`. Safe. -/
  | badIndex
  /-- R196 (e), R212: a step other than RESET before the first RESET after power-up. Safe. -/
  | beforeFirstReset
  deriving DecidableEq, Repr

/-- The state of one core instance. `none` is the spec's `⊥`, "no value" (R12): a register that has
been reset or discarded and not written since. -/
structure State where
  /-- The State register, 16 bytes in column-major order (R20). -/
  S : Option Block
  /-- The key latch, 4 words (R21). -/
  KIN : Option Key
  /-- The round-key file, `RK[0]` to `RK[10]` (R28). -/
  RK : Vector (Option Key) 11
  /-- The result register, which drives the port `ct_out` (R27, R166). -/
  CT : Option Block
  /-- The sequencer's phase (R23). -/
  phase : Phase
  /-- The micro-program counter, 6 bits, legal values 0..51 (R23). -/
  upc : BitVec 6
  /-- The result-valid flag, which drives the port `done` (R26). -/
  done : Bool
  /-- Whether a RESET step has been applied since power-up (R212). -/
  resetSeen : Bool
  /-- The levels on the input ports `rst`, `start`, `key_in`, `pt_in` at the coming step (R27). -/
  ports : HostWord
  /-- The levels the host drives onto the input ports at the steps after the coming one, earliest
  first. When none is left the ports keep their levels. -/
  pending : List HostWord
  deriving DecidableEq, Repr

/-- The outcome of an instruction or of a step. -/
abbrev Out := Host.Outcome State Fault Refusal

/-- A round-key file every entry of which holds `⊥` (R32). -/
def noSchedule : Vector (Option Key) 11 := Vector.replicate 11 none

/-- The input ports with every level low: no host operation is requested. -/
def quietPorts : HostWord := ⟨false, false, 0, 0⟩

/-- The machine right after a RESET step (R32), with quiet input ports and no further level driven
by the host (a DESIGN CHOICE: the spec gives input ports no value; notes/assumptions/2.md). -/
def State.reset : State where
  S := none
  KIN := none
  RK := noSchedule
  CT := none
  phase := .idle
  upc := 0
  done := false
  resetSeen := true
  ports := quietPorts
  pending := []

end Sys2Proof.Machine
end

