-- ==== Sys2Proof/Machine/Flags.lean ====
section
/-! DEFINITION. The two status flags and the output ports (spec R26, R27, R167, R215). The hardware
has no condition code. Outputs are functions of the registers only. -/

namespace Sys2Proof.Machine

/-- Port `busy`: 1 exactly when `phase = RUN` (R26). -/
def State.busy (s : State) : Bool := s.phase == .run

/-- `FIN` sets the register `done` (R26, R166). -/
def State.raiseDone (s : State) : State := { s with done := true }

/-- Accept and RESET clear the register `done` (R26, R161, R210). -/
def State.clearDone (s : State) : State := { s with done := false }

/-- Port `ct_out`: `pack(CT)` (R167). It is meaningful only while `done = 1`; while `done = 0` the
model gives it no value (R215). -/
def State.ctOut (s : State) : Option Port := if s.done then s.CT.map packBlock else none

/-- What the host sees: the output ports `busy`, `done` and `ct_out`, nothing else (R22, R201). -/
structure HostView where
  busy : Bool
  done : Bool
  ct_out : Option Port
  deriving DecidableEq, Repr

/-- The levels on the output ports (R167). -/
def State.view (s : State) : HostView := ⟨s.busy, s.done, s.ctOut⟩

end Sys2Proof.Machine
end

