-- ==== Sys2Proof/Config.lean ====
section
/-! DEFINITION. The parameters of AES128E (spec R7, R8): the ones the spec fixes, and
`UOP_CYCLES`, which it leaves open. -/

namespace Sys2Proof.Config

/-- Columns of the state (R7). -/
def NB : Nat := 4
/-- Words of a key (R7). -/
def NK : Nat := 4
/-- Rounds: nine middle rounds and one final round (R7). -/
def NR : Nat := 10
/-- Round keys, indexed 0 to 10 (R7). -/
def NRK : Nat := 11
/-- Entries of the substitution table (R7). -/
def SBOX_N : Nat := 256
/-- Entries of the round-constant table (R7). -/
def RCON_N : Nat := 10
/-- Entries of the micro-program (R8). -/
def UPROG_N : Nat := 52
/-- Width of the micro-program counter in bits (R8). -/
def UPC_W : Nat := 6
/-- Width of a micro-operation word in bits (R8). -/
def UOP_W : Nat := 8

/-- How many clock cycles beyond the first an implementation spends on a micro-operation. The spec
leaves `UOP_CYCLES` open (R8, U11), so this constant has no body. -/
opaque uopCyclesBeyondFirst : Nat

/-- `UOP_CYCLES`: OPEN, any integer of at least 1 (R8). Nothing but `Machine/Timing.lean` reads it,
since no claim may depend on it. -/
def UOP_CYCLES : Nat := uopCyclesBeyondFirst + 1

end Sys2Proof.Config
end

