-- ==== Sys2Proof/Machine/Ops.lean ====
section
/-! DEFINITION. The named operations over the registers that the meanings share: reads that fault
on `⊥` and refuse a bad index (spec R12, R196), writes and discards (R17), the moves of the
sequencer position (R25), and what RESET does (R210).

The hardware takes no exception, no trap and no interrupt and has no return from one (R190, R192,
R194), so there is no such operation here; its nearest event is RESET, which saves nothing (R194,
R211). -/

namespace Sys2Proof.Machine

/-- The legal sequencer positions: `upc` in 0..51 while running, `upc = 0` while idle (R23). -/
def State.legalUpc (s : State) : Bool :=
  match s.phase with
  | .idle => s.upc == 0
  | .run => decide (s.upc.toNat < 52)

/-- An operation has a meaning only at a legal sequencer position (R196 (b)). -/
def atLegalUpc (s : State) (k : Out) : Out :=
  if s.legalUpc then k else .refused .badUpc

/-- Read of a register: its value, or `fault(read_of_no_value)`. The spec states this stop: a model
treats a read of `⊥` "as a model fault, never as zero or as any other value" (R12; R196 (d); D12 of
92_eei_decisions.md; U6 of 93_implementation_defined.md). -/
def reading {α : Type} (r : Reg) (v : Option α) (k : α → Out) : Out :=
  match v with
  | none => .fault (.readOfNoValue r)
  | some a => k a

/-- Read of `RK[k]`: there is no entry 11 or above (R28, R196 (c)), and an entry may hold `⊥`. -/
def readingRK (s : State) (k : Nat) (cont : Key → Out) : Out :=
  match s.RK[k]? with
  | none => .refused .badIndex
  | some v => reading (.RK k) v cont

/-- `RomRead(RCON, a)`: addresses 10 and above hold nothing (R51, R196 (c)). -/
def readingRcon (a : Nat) (cont : Word → Out) : Out :=
  match romRcon a with
  | none => .refused .badIndex
  | some w => cont w

/-- `S <- T`, all 16 bytes at once (R20). -/
def State.writeS (s : State) (b : Block) : State := { s with S := some b }

/-- `KIN <- K` (R21). -/
def State.writeKIN (s : State) (k : Key) : State := { s with KIN := some k }

/-- `RK[k] <- K`, all 4 words at once (R28). -/
def State.writeRK (s : State) (k : Nat) (key : Key) : State :=
  { s with RK := s.RK.setIfInBounds k (some key) }

/-- `CT <- T`, all 16 bytes at once (R166). -/
def State.writeCT (s : State) (b : Block) : State := { s with CT := some b }

/-- Discard of `S` and `KIN` (R31, R166). -/
def State.discardOperands (s : State) : State := { s with S := none, KIN := none }

/-- Discard of every round key (R29, R161, R166). -/
def State.discardRK (s : State) : State := { s with RK := noSchedule }

/-- Discard of `CT` (R161, R210). -/
def State.discardCT (s : State) : State := { s with CT := none }

/-- `upc <- upc + 1` (R25). -/
def State.advance (s : State) : State := { s with upc := s.upc + 1 }

/-- `upc <- 0; phase <- RUN` (R25, R161). -/
def State.enterRun (s : State) : State := { s with upc := 0, phase := .run }

/-- `upc <- 0; phase <- IDLE` (R25, R166, R210). -/
def State.enterIdle (s : State) : State := { s with upc := 0, phase := .idle }

/-- The first RESET after power-up ends the unreset condition (R212). -/
def State.markReset (s : State) : State := { s with resetSeen := true }

/-- Time passes on the input ports: the host drives the next levels it has, and otherwise leaves
the ports as they are. The core never writes them (R27). -/
def State.tick (s : State) : State :=
  match s.pending with
  | [] => s
  | h :: hs => { s with ports := h, pending := hs }

end Sys2Proof.Machine
end

