-- ==== Sys2Proof/Machine/AddRoundKey.lean ====
section
/-! DEFINITION. Family "Round-key addition" (spec file 45_add_round_key.md): `AddRoundKey` and the
meaning of ARK. -/

namespace Sys2Proof.Machine

/-- `AddRoundKey(S, K)[r + 4c] = S[r + 4c] ^ byte(K[c], r)` (R155). -/
def addRoundKey (b : Block) (k : Key) : Block :=
  blockOfCells fun r c => cell b r c ^^^ byteOf k[c] r

/-- ARK k (R155). For `k` in 11..15 there is no `RK[k]` (R90, R155 corner case (c), R196 (c)). -/
def execArk (k : BitVec 4) (s : State) : Out :=
  atLegalUpc s <|
    readingRK s k.toNat fun key =>
      reading .S s.S fun b => .next (s.writeS (addRoundKey b key)).advance

end Sys2Proof.Machine
end

