-- ==== Sys2Proof/Machine/Substitution.lean ====
section
/-! DEFINITION. Family "Substitution" (spec file 41_substitution.md): `Sbox`, `SubWord`,
`SubBytes`, and the meaning of SUB. -/

namespace Sys2Proof.Machine

/-- `Sbox(b)` (R110). -/
def sbox (b : Byte) : Byte := romSbox b

/-- `SubWord(W)`: `Sbox` on each byte of a word, each byte staying in its position (R112). -/
def subWord (w : Word) : Word :=
  wordOf (sbox (byteOf w 0)) (sbox (byteOf w 1)) (sbox (byteOf w 2)) (sbox (byteOf w 3))

/-- `SubBytes(S)`: `Sbox` on each byte of the state (R113). -/
def subBytes (b : Block) : Block := Vector.ofFn fun i => sbox b[i]

/-- SUB (R113). -/
def execSub (s : State) : Out :=
  atLegalUpc s <|
    reading .S s.S fun b => .next (s.writeS (subBytes b)).advance

end Sys2Proof.Machine
end

