-- ==== Sys2Proof/Machine/KeySchedule.lean ====
section
/-! DEFINITION. Family "Key schedule" (spec file 42_key_schedule.md): `RotWord`, `KeyExpandStep`,
`expand`, and the meanings of KLD and KEXP. -/

namespace Sys2Proof.Machine

/-- `RotWord(W) = W[23:0] || W[31:24]` (R120). -/
def rotWord (w : Word) : Word := w.extractLsb' 0 24 ++ w.extractLsb' 24 8

/-- `KeyExpandStep(P, k)` of R121, its round constant `RCON[k-1]` given as `rc`. -/
def keyExpandStep (p : Key) (rc : Word) : Key :=
  let t0 := subWord (rotWord p[3]) ^^^ p[0] ^^^ rc
  let t1 := t0 ^^^ p[1]
  let t2 := t1 ^^^ p[2]
  let t3 := t2 ^^^ p[3]
  #v[t0, t1, t2, t3]

/-- Round key `k` of a key: the key itself for `k = 0`, then one `KeyExpandStep` after the other
(R122). -/
def roundKey (key : Key) : (k : Nat) → k ≤ 10 → Key
  | 0, _ => key
  | k + 1, h => keyExpandStep (roundKey key k (Nat.le_of_succ_le h)) rconTable[k]

/-- `expand(key)`: exactly 11 round keys (R122). -/
def expand (key : Key) : Vector Key 11 :=
  Vector.ofFn fun k => roundKey key k.val (Nat.le_of_lt_succ k.isLt)

/-- KLD (R123). -/
def execKld (s : State) : Out :=
  atLegalUpc s <|
    reading .KIN s.KIN fun key => .next (s.writeRK 0 key).advance

/-- KEXP k (R124): reads `RCON[k-1]` and `RK[k-1]`, writes `RK[k]`. For `k = 0` neither index
exists; for `k` in 11..15 `RCON[k-1]` does not (R90, R124 corner case (a), R196 (c)). -/
def execKexp (k : BitVec 4) (s : State) : Out :=
  atLegalUpc s <|
    if k.toNat = 0 then .refused .badIndex
    else
      readingRcon (k.toNat - 1) fun rc =>
        readingRK s (k.toNat - 1) fun p => .next (s.writeRK k.toNat (keyExpandStep p rc)).advance

end Sys2Proof.Machine
end

