-- ==== Sys2Proof/Machine/MixColumns.lean ====
section
/-! DEFINITION. Family "Column mixing" (spec file 44_mix_columns.md): `xtime`, `mul1`, `mul2`,
`mul3`, `MixColumn`, `MixColumns`, and the meaning of MIX. -/

namespace Sys2Proof.Machine

/-- `xtime(b)`: shift left by one and, if the original bit 7 was set, XOR with 0x1B (R140). -/
def xtime (b : Byte) : Byte := if b.getLsbD 7 then (b <<< 1) ^^^ 0x1b else b <<< 1

/-- `mul1(b) = b` (R141). -/
def mul1 (b : Byte) : Byte := b

/-- `mul2(b) = xtime(b)` (R141). -/
def mul2 (b : Byte) : Byte := xtime b

/-- `mul3(b) = xtime(b) ^ b` (R141). -/
def mul3 (b : Byte) : Byte := xtime b ^^^ b

/-- `MixColumn(a0, a1, a2, a3)`, the four bytes of a column in row order (R144). -/
def mixColumn (a0 a1 a2 a3 : Byte) : Vector Byte 4 :=
  #v[mul2 a0 ^^^ mul3 a1 ^^^ mul1 a2 ^^^ mul1 a3,
     mul1 a0 ^^^ mul2 a1 ^^^ mul3 a2 ^^^ mul1 a3,
     mul1 a0 ^^^ mul1 a1 ^^^ mul2 a2 ^^^ mul3 a3,
     mul3 a0 ^^^ mul1 a1 ^^^ mul1 a2 ^^^ mul2 a3]

/-- `MixColumns(S)`: `MixColumn` on each of the four columns (R145). -/
def mixColumns (b : Block) : Block :=
  blockOfCells fun r c => (mixColumn (cell b 0 c) (cell b 1 c) (cell b 2 c) (cell b 3 c))[r]

/-- MIX (R145). -/
def execMix (s : State) : Out :=
  atLegalUpc s <|
    reading .S s.S fun b => .next (s.writeS (mixColumns b)).advance

end Sys2Proof.Machine
end

