-- ==== Sys2Proof/Machine/ShiftRows.lean ====
section
/-! DEFINITION. Family "Row shift" (spec file 43_shift_rows.md): `ShiftRows` and the meaning of
SHR. -/

namespace Sys2Proof.Machine

/-- `ShiftRows(S)`: row `r` is rotated left by `r` positions, `s'(r, c) = s(r, (c + r) mod 4)`
(R135). -/
def shiftRows (b : Block) : Block := blockOfCells fun r c => cell b r (c + r)

/-- SHR (R135). -/
def execShr (s : State) : Out :=
  atLegalUpc s <|
    reading .S s.S fun b => .next (s.writeS (shiftRows b)).advance

end Sys2Proof.Machine
end

