-- ==== Sys2Proof/Machine/CipherDriver.lean ====
section
/-! DEFINITION. Family "Cipher driver" (spec file 46_cipher_driver.md): the function `encrypt` that
the driver computes, and the meanings of START and FIN. -/

namespace Sys2Proof.Machine

/-- One middle round: SubBytes, ShiftRows, MixColumns, AddRoundKey (R168). -/
def middleRound (b : Block) (k : Key) : Block :=
  addRoundKey (mixColumns (shiftRows (subBytes b))) k

/-- The final round: MixColumns deliberately omitted (R168). -/
def finalRound (b : Block) (k : Key) : Block := addRoundKey (shiftRows (subBytes b)) k

/-- `X0` to `X9` of R168: the state after the initial key addition and after each middle round. -/
def roundState (pt : Block) (rk : Vector Key 11) : (r : Nat) → r ≤ 9 → Block
  | 0, _ => addRoundKey pt rk[0]
  | r + 1, h => middleRound (roundState pt rk r (Nat.le_of_succ_le h)) rk[r + 1]

/-- `encrypt(pt, key)` (R168). -/
def encrypt (pt : Block) (key : Key) : Block :=
  finalRound (roundState pt (expand key) 9 (Nat.le_refl 9)) (expand key)[10]

/-- The register transfer of an accepted START (R161). -/
def accept (key pt : Port) (s : State) : State :=
  ((((s.writeKIN (keyOfPort key)).writeS (blockOfPort pt)).discardRK).discardCT).clearDone.enterRun

/-- START key, pt: accepted when `phase = IDLE` (R160, R161); while `phase = RUN` it has no effect
at all (R82, R163). -/
def execStart (key pt : Port) (s : State) : Out :=
  atLegalUpc s <|
    match s.phase with
    | .idle => .next (accept key pt s)
    | .run => .next s

/-- FIN (R166). -/
def execFin (s : State) : Out :=
  atLegalUpc s <|
    reading .S s.S fun b => .next ((s.writeCT b).raiseDone.discardOperands.discardRK.enterIdle)

end Sys2Proof.Machine
end

