-- ==== Sys2Proof/Machine/Reset.lean ====
section
/-! DEFINITION. RESET (spec file 70_reset_and_hazards.md). It is the one operation that has a
meaning in every state, before the first RESET and at an illegal sequencer position included
(R167, R212). -/

namespace Sys2Proof.Machine

/-- The register transfer of RESET (R210). The input ports are the host's and stay. -/
def State.resetRegisters (s : State) : State :=
  s.enterIdle.clearDone.discardOperands.discardCT.discardRK.markReset

/-- RESET (R210). -/
def execReset (s : State) : Out := .next s.resetRegisters

end Sys2Proof.Machine
end

