-- ==== Sys2Proof/Syntax.lean ====
section
/-! DEFINITION. The operations of AES128E: seven micro-operations and two host operations, one
constructor for each row of `spec/opcode_table.json` (spec R85, R86, R87). -/

namespace Sys2Proof

/-- The instruction set (R87). -/
inductive Instr where
  /-- `KLD`: load round key 0 (R123). -/
  | kld
  /-- `KEXP k`: derive round key `k` from round key `k-1` (R124). -/
  | kexp (k : BitVec 4)
  /-- `ARK k`: add round key `k` to the state (R155). -/
  | ark (k : BitVec 4)
  /-- `SUB`: SubBytes on the state (R113). -/
  | sub
  /-- `SHR`: ShiftRows on the state (R135). -/
  | shr
  /-- `MIX`: MixColumns on the state (R145). -/
  | mix
  /-- `FIN`: present the state as ciphertext and end the operation (R166). -/
  | fin
  /-- `RESET` (R210). -/
  | reset
  /-- `START key, pt`, its operands as they stand on the ports `key_in` and `pt_in` (R160, R161). -/
  | start (key pt : Port)
  deriving DecidableEq, Repr

end Sys2Proof
end

