-- ==== Sys2Proof/Machine/Dispatch.lean ====
section
/-! DEFINITION. The meaning of each instruction, one arm per constructor of Instr. -/

namespace Sys2Proof.Machine

/-- What an instruction does to the registers, in any state. -/
def exec (i : Instr) (s : State) : Host.Outcome State Fault Refusal :=
  match i with
  | .kld => Sys2Proof.Machine.execKld s
  | .kexp k => Sys2Proof.Machine.execKexp k s
  | .ark k => Sys2Proof.Machine.execArk k s
  | .sub => Sys2Proof.Machine.execSub s
  | .shr => Sys2Proof.Machine.execShr s
  | .mix => Sys2Proof.Machine.execMix s
  | .fin => Sys2Proof.Machine.execFin s
  | .reset => Sys2Proof.Machine.execReset s
  | .start key pt => Sys2Proof.Machine.execStart key pt s

end Sys2Proof.Machine
end

