-- ==== Sys2Proof/WellFormed.lean ====
section
/-! DEFINITION. Which instructions have an encoding: the legal ranges of the round-key index `k`
(spec R84, R85). Every other operand value is legal (R89). -/

namespace Sys2Proof

/-- `KEXP k` needs `k` in 1..10 and `ARK k` needs `k` in 0..10; the other operations have no
restricted operand (R84, R85, R89). -/
def Instr.wellFormed : Instr → Bool
  | .kld => true
  | .kexp k => decide (1 ≤ k.toNat) && decide (k.toNat ≤ 10)
  | .ark k => decide (k.toNat ≤ 10)
  | .sub => true
  | .shr => true
  | .mix => true
  | .fin => true
  | .reset => true
  | .start _ _ => true

end Sys2Proof
end

