-- ==== Sys2Proof/Decode.lean ====
section
/-! DEFINITION. Decoding and encoding (spec R80 to R90). Format U is an 8-bit word whose bits 7:4
are `opc` and bits 3:0 are `k`; format H is a set of port values whose selector is `rst || start`.
Decoding is total and answers a reason by name where a word is no operation. -/

namespace Sys2Proof

/-- A word of either format (R80). -/
inductive MachineWord where
  /-- Format U (R83). -/
  | uop (u : UopWord)
  /-- Format H (R81). -/
  | host (h : HostWord)
  deriving DecidableEq, Repr

/-- Why a word is no operation. -/
inductive DecodeError where
  /-- A format-U word that R88 reserves. -/
  | reservedUop (u : UopWord)
  /-- The format-H selector `00` (R81, R86). -/
  | noOperation
  deriving DecidableEq, Repr

/-- Field `opc` of a format-U word, bits 7:4 (R83). -/
def uopOpc (u : UopWord) : BitVec 4 := u.extractLsb' 4 4

/-- Field `k` of a format-U word, bits 3:0, unsigned (R83, R84). -/
def uopIndex (u : UopWord) : BitVec 4 := u.extractLsb' 0 4

/-- The answer for a decoded candidate: the instruction where its operand is in the legal range,
else the refusal of a reserved word (R85, R88). -/
def legalUop (u : UopWord) (legal : Bool) (i : Instr) : Except DecodeError Instr :=
  if legal then .ok i else .error (.reservedUop u)

/-- Decoding of format U by `opc` (R85), total on all 256 words; every word of R88 is reserved. -/
def decodeUop (u : UopWord) : Except DecodeError Instr :=
  match (uopOpc u).toNat with
  | 0x1 => legalUop u (uopIndex u == 0) .kld
  | 0x2 => legalUop u (Instr.kexp (uopIndex u)).wellFormed (.kexp (uopIndex u))
  | 0x3 => legalUop u (Instr.ark (uopIndex u)).wellFormed (.ark (uopIndex u))
  | 0x4 => legalUop u (uopIndex u == 0) .sub
  | 0x5 => legalUop u (uopIndex u == 0) .shr
  | 0x6 => legalUop u (uopIndex u == 0) .mix
  | 0x7 => legalUop u (uopIndex u == 0) .fin
  | _ => .error (.reservedUop u)

/-- Decoding of format H by the selector `rst || start`: `1x` is RESET whatever the other fields
hold, `01` is START, `00` is no operation (R81, R86). -/
def decodeHost (h : HostWord) : Except DecodeError Instr :=
  if h.rst then .ok .reset
  else if h.start then .ok (.start h.key_in h.pt_in)
  else .error .noOperation

/-- Decoding of a word of either format (R80). -/
def decode : MachineWord → Except DecodeError Instr
  | .uop u => decodeUop u
  | .host h => decodeHost h

/-- The format-U word with the given fields (R83). -/
def uopWord (opc k : BitVec 4) : UopWord := opc ++ k

/-- The word of an instruction (R85, R86). The fields that RESET leaves as don't-care are encoded
as zero. -/
def encode : Instr → MachineWord
  | .kld => .uop (uopWord 0x1 0)
  | .kexp k => .uop (uopWord 0x2 k)
  | .ark k => .uop (uopWord 0x3 k)
  | .sub => .uop (uopWord 0x4 0)
  | .shr => .uop (uopWord 0x5 0)
  | .mix => .uop (uopWord 0x6 0)
  | .fin => .uop (uopWord 0x7 0)
  | .reset => .host ⟨true, false, 0, 0⟩
  | .start key pt => .host ⟨false, true, key, pt⟩

/-- The word of `spec/opcode_table.json` whose bits are `w`. The table numbers the rows of format H
by the 2-bit selector (bit 1 `rst`, bit 0 `start`, with `key_in` and `pt_in` given no bits) and the
rows of format U by the 8-bit word. The two number ranges do not collide: the numbers 0 to 3 as
format-U words have `opc = 0` and are reserved (R88). -/
def tableWord (w : Nat) : Option MachineWord :=
  if w < 4 then some (.host ⟨w.testBit 1, w.testBit 0, 0, 0⟩)
  else if w < 256 then some (.uop (BitVec.ofNat 8 w))
  else none

/-- The instruction this decoder reads from the word of `spec/opcode_table.json` whose bits are
`w`, the bits above `nbits` being zero. No row of the table is longer than 8 bits. -/
def decodeTableWord (nbits w : Nat) : Option Instr :=
  (tableWord (w % 2 ^ nbits)).bind fun m => (decode m).toOption

end Sys2Proof
end

