-- ==== Sys2Proof/Machine/Fetch.lean ====
section
/-! DEFINITION. Which operation a step runs (spec R164, R167, R193), and the placing of a word
where the next step finds it. -/

namespace Sys2Proof.Machine

/-- The micro-operation that a step with `phase = RUN` runs: fetch `UPROG[upc]`, decode it (R164).
Neither refusal is reachable (R57, R88). -/
def fetchUop (s : State) : Except Refusal Instr :=
  match romUprog s.upc.toNat with
  | none => .error .badUpc
  | some u =>
    match decodeUop u with
    | .ok i => .ok i
    | .error _ => .error (.reservedUop u)

/-- The operation of the coming step, in the order of R167: RESET first; then, in a core that has
been reset (R212), START or nothing (`none`, hold) while idle, the fetched micro-operation while
running. -/
def select (s : State) : Except Refusal (Option Instr) :=
  if s.ports.rst then .ok (some .reset)
  else if !s.resetSeen then .error .beforeFirstReset
  else match s.phase with
    | .idle => if s.legalUpc then .ok (decodeHost s.ports).toOption else .error .badUpc
    | .run => (fetchUop s).map some

/-- The round keys written before the micro-operation at `UPROG` address `a` (R28, R125): `RK[k]`
of `expand(key)` for `k < a`, `⊥` for the rest. -/
def scheduleBefore (key : Key) (a : Nat) : Vector (Option Key) 11 :=
  Vector.ofFn fun k => if k.val < a then some (expand key)[k] else none

/-- The lowest `UPROG` address that holds the word `u`. -/
def uprogAddress (u : UopWord) : Option Nat := uprogTable.toList.findIdx? (· == u)

/-- Place the core at `UPROG` address `a` of an operation: the levels on the ports leave it
running, and the registers that stand written at that address (R176) hold values. `S` and `KIN`
keep a value they hold and otherwise take the operand now on their port; the round keys are those
of `KIN`; `CT` and `done` are as in every operation. -/
def State.placeAt (s : State) (a : Nat) : State :=
  let key := s.KIN.getD (keyOfPort s.ports.key_in)
  { s with
    S := some (s.S.getD (blockOfPort s.ports.pt_in))
    KIN := some key
    RK := scheduleBefore key a
    CT := none
    phase := .run
    upc := BitVec.ofNat 6 a
    done := false
    resetSeen := true
    ports := { s.ports with rst := false } }

/-- Bring a core to where the next step takes a START: idle. An idle core keeps its registers; a
running operation is given up. -/
def State.placeIdle (s : State) : State :=
  match s.phase with
  | .idle => s.enterIdle.markReset
  | .run => s.discardOperands.discardRK.discardCT.clearDone.enterIdle.markReset

/-- A running core whose position is out of range: the next step refuses with `badUpc`. -/
def State.placeNowhere (s : State) : State := { s.placeAt 0 with upc := 63 }

/-- Place a word where the next step finds it. A format-H word goes onto the ports. A format-U word
is selected at the `UPROG` address that holds it: UPROG is a ROM and nothing can be stored into it
(R65); for a word it does not hold, `upc` is put out of range and the next step refuses. -/
def State.placeWord (s : State) : MachineWord → State
  | .host h =>
    if h.rst then { s with ports := h } else { s.placeIdle with ports := h }
  | .uop u =>
    match uprogAddress u with
    | some a => s.placeAt a
    | none => s.placeNowhere

/-- Place the word of `spec/opcode_table.json` whose bits are `w`. -/
def State.placeTableWord (s : State) (w : Nat) : State :=
  match tableWord w with
  | some m => s.placeWord m
  | none => s.placeNowhere

end Sys2Proof.Machine
end

