-- ==== Sys2Proof/Machine/Step.lean ====
section
/-! DEFINITION. One step of the machine (spec R167): one rising edge of `clk` in the reference
timing. -/

namespace Sys2Proof.Machine

/-- Time passes on the input ports after an instruction that completed. -/
def afterExec : Out → Out
  | .next s => .next s.tick
  | .fault r => .fault r
  | .refused r => .refused r

/-- One step (R167): the selected operation, or nothing where the core holds (R162). -/
def step (s : State) : Host.Outcome State Fault Refusal :=
  match select s with
  | .error r => .refused r
  | .ok none => .next s.tick
  | .ok (some i) => afterExec (exec i s)

/-- The state in which the very next step runs the word of `spec/opcode_table.json` whose bits are
`w`, the bits above `nbits` being zero (DESIGN CHOICE, notes/assumptions/4.md). -/
def State.withFetchWord (s : State) (nbits w : Nat) : State :=
  s.placeTableWord (w % 2 ^ nbits)

end Sys2Proof.Machine
end

