-- ==== Sys2Proof/Machine/Listing.lean ====
section
/-! DEFINITION. The notation of the spec's listings (spec R91) and the pseudo-operations (R92). -/

namespace Sys2Proof.Machine

/-- The mnemonic of an instruction (R85, R86, R91). -/
def mnemonic : Instr → String
  | .kld => "KLD"
  | .kexp _ => "KEXP"
  | .ark _ => "ARK"
  | .sub => "SUB"
  | .shr => "SHR"
  | .mix => "MIX"
  | .fin => "FIN"
  | .reset => "RESET"
  | .start _ _ => "START"

/-- One lower-case hex digit. -/
def hexDigit (n : Nat) : Char := Nat.digitChar (n % 16)

/-- The lowest `digits` hex digits of a number, most significant first. -/
def hexDigits : (digits : Nat) → Nat → List Char
  | 0, _ => []
  | d + 1, n => hexDigits d (n / 16) ++ [hexDigit n]

/-- The key operand of START as 4 words of 8 hex digits each (R91). -/
def listKey (k : Key) : String :=
  String.intercalate " " (k.toList.map fun w => String.ofList (hexDigits 8 w.toNat))

/-- The plaintext operand of START as 16 bytes of 2 hex digits each, byte 0 first (R91). -/
def listBlock (b : Block) : String :=
  String.intercalate " " (b.toList.map fun x => String.ofList (hexDigits 2 x.toNat))

/-- One line of a listing: the mnemonic, with `k` in decimal or with START's operands (R91). -/
def listing (i : Instr) : String :=
  match i with
  | .kexp k => "KEXP " ++ toString k.toNat
  | .ark k => "ARK " ++ toString k.toNat
  | .start key pt =>
    "START key=" ++ listKey (keyOfPort key) ++ " pt=" ++ listBlock (blockOfPort pt)
  | .kld => mnemonic .kld
  | .sub => mnemonic .sub
  | .shr => mnemonic .shr
  | .mix => mnemonic .mix
  | .fin => mnemonic .fin
  | .reset => mnemonic .reset

/-- `EXPAND` (R92). -/
def expandOps : List Instr :=
  [.kld, .kexp 1, .kexp 2, .kexp 3, .kexp 4, .kexp 5, .kexp 6, .kexp 7, .kexp 8, .kexp 9, .kexp 10]

/-- `INITIAL` (R92). -/
def initialOps : List Instr := [.ark 0]

/-- `ROUND r`, `r` in 1..9 (R92). -/
def roundOps (r : BitVec 4) : List Instr := [.sub, .shr, .mix, .ark r]

/-- `FINAL` (R92). -/
def finalOps : List Instr := [.sub, .shr, .ark 10]

/-- `ENCRYPT` (R92). -/
def encryptOps : List Instr :=
  expandOps ++ initialOps ++ roundOps 1 ++ roundOps 2 ++ roundOps 3 ++ roundOps 4 ++ roundOps 5 ++
    roundOps 6 ++ roundOps 7 ++ roundOps 8 ++ roundOps 9 ++ finalOps ++ [.fin]

end Sys2Proof.Machine
end

