-- ==== Sys2Proof/Safety.lean ====
section
/-! DEFINITION. The terms in which claims about AES128E are stated: runs, the inputs of a run, the
registers without the inputs, and the invariant of every state a reset core can be in. -/

namespace Sys2Proof.Machine

/-- `n` steps from a state, stopping at the first fault or refusal. -/
abbrev runs (n : Nat) (s : State) : Out := Host.Core.run Sys2Proof.core n s

/-- What the input ports hold at the `j`-th step from a state, counting from 0. -/
def portsAt : State → Nat → HostWord
  | s, 0 => s.ports
  | s, j + 1 => portsAt s.tick j

/-- The registers of a state: the state with the same quiet inputs whatever its inputs are. -/
def State.registers (s : State) : State := { s with ports := quietPorts, pending := [] }

/-- What holds of every state a core can be in after its first RESET: while idle, `upc = 0`, the
data registers of an operation hold `⊥` and `CT` holds a value exactly when `done` is 1 (R23, R26,
R31); while running, `upc` is in 0..51, `done` is 0, `CT` holds `⊥`, `S` and `KIN` hold values, and
the round keys written so far are those of `KIN` (R23, R26, R28, R161, R176). -/
def State.Inv (s : State) : Prop :=
  s.resetSeen = true ∧
  match s.phase with
  | .idle => s.upc = 0 ∧ s.S = none ∧ s.KIN = none ∧ s.RK = noSchedule ∧ s.done = s.CT.isSome
  | .run => s.upc.toNat ≤ 51 ∧ s.done = false ∧ s.CT = none ∧ s.S ≠ none ∧
      ∃ key, s.KIN = some key ∧ s.RK = scheduleBefore key s.upc.toNat

/-- `0x02^n * a` in the field of R142. -/
def xtimeIter (a : Byte) : Nat → Byte
  | 0 => a
  | n + 1 => xtime (xtimeIter a n)

/-- The product in the field of R142. The hardware has no general multiplier: the product is a term
of claims that check the tables and MixColumn, as the spec uses it (R50, R142). -/
def fieldMul (a b : Byte) : Byte :=
  (List.range 8).foldl (fun acc i => if b.getLsbD i then acc ^^^ xtimeIter a i else acc) 0

/-- The affine map of R50's cross-check, bit `i` of it, applied to `x`. -/
def affineBit (x : Byte) (i : Nat) : Bool :=
  x.getLsbD i ^^ x.getLsbD ((i + 4) % 8) ^^ x.getLsbD ((i + 5) % 8) ^^ x.getLsbD ((i + 6) % 8) ^^
    x.getLsbD ((i + 7) % 8) ^^ (0x63 : Byte).getLsbD i

/-- The coefficient `c_d` of R143's fixed polynomial `3 x^3 + 1 x^2 + 1 x + 2`. -/
def mixCoefficient : Fin 4 → Byte := ![0x02, 0x01, 0x01, 0x03]

end Sys2Proof.Machine
end

