-- ==== Sys2Proof/Certificates/Slice0/Obligations.lean ====
section
/-! DEFINITION. The statements for the provers. Each docstring names the rule of the spec it
formalises. The hardware has no writable memory (R13, R30), so a frame speaks of registers only;
the input ports and the levels still to come are part of it. -/

open Sys2Proof Sys2Proof.Machine

/-! ## Encoding -/

/-- R83 to R86: no bit of an encoding is dropped, for every operand value an instruction may have. -/
def Obligations.DecodeOfEncodeIsTheInstruction : Prop :=
  ∀ i : Instr, i.wellFormed = true → decode (encode i) = .ok i

/-- R88, R90: an instruction with an index outside its range has a reserved word. -/
def Obligations.IllFormedIndexEncodesToAReservedWord : Prop :=
  ∀ i : Instr, i.wellFormed = false →
    ∃ u, encode i = .uop u ∧ decode (.uop u) = .error (.reservedUop u)

/-- R85: each format-U word has one meaning, and it is the only word of that meaning. -/
def Obligations.DecodedUopEncodesBack : Prop :=
  ∀ (u : UopWord) (i : Instr), decodeUop u = .ok i → i.wellFormed = true ∧ encode i = .uop u

/-- R85: a word is an operation exactly when it matches under the row's mask and `k` is in the
legal range; there are 26 legal words. -/
def Obligations.FormatUByMatchAndMask : Prop :=
  (∀ (u : UopWord),
    (decodeUop u = .ok .kld ↔ u &&& 0xFF = 0x10) ∧
    (∀ k, decodeUop u = .ok (.kexp k) ↔
      u &&& 0xF0 = 0x20 ∧ k.toNat = u.toNat % 16 ∧ 1 ≤ k.toNat ∧ k.toNat ≤ 10) ∧
    (∀ k, decodeUop u = .ok (.ark k) ↔
      u &&& 0xF0 = 0x30 ∧ k.toNat = u.toNat % 16 ∧ k.toNat ≤ 10) ∧
    (decodeUop u = .ok .sub ↔ u &&& 0xFF = 0x40) ∧
    (decodeUop u = .ok .shr ↔ u &&& 0xFF = 0x50) ∧
    (decodeUop u = .ok .mix ↔ u &&& 0xFF = 0x60) ∧
    (decodeUop u = .ok .fin ↔ u &&& 0xFF = 0x70)) ∧
  ((List.range 256).filter fun w => (decodeUop (BitVec.ofNat 8 w)).toOption.isSome) =
    [0x10, 0x21, 0x22, 0x23, 0x24, 0x25, 0x26, 0x27, 0x28, 0x29, 0x2a, 0x30, 0x31, 0x32, 0x33, 0x34,
     0x35, 0x36, 0x37, 0x38, 0x39, 0x3a, 0x40, 0x50, 0x60, 0x70]

/-- R88: the reserved format-U words, listed as the rule lists them, are refused by name; there are
230 of them and UPROG holds none. -/
def Obligations.ReservedWordsAreRefused : Prop :=
  (∀ u : UopWord,
    decodeUop u = .error (.reservedUop u) ↔
      (u.toNat / 16 = 0 ∨ 8 ≤ u.toNat / 16) ∨
      (u.toNat / 16 ∈ [0x1, 0x4, 0x5, 0x6, 0x7] ∧ u.toNat % 16 ≠ 0) ∨
      (u.toNat = 0x20 ∨ (0x2b ≤ u.toNat ∧ u.toNat ≤ 0x2f)) ∨
      (0x3b ≤ u.toNat ∧ u.toNat ≤ 0x3f)) ∧
  ((List.range 256).filter fun w => !(decodeUop (BitVec.ofNat 8 w)).toOption.isSome).length = 230 ∧
  ∀ u ∈ uprogTable.toList, decodeUop u ≠ .error (.reservedUop u)

/-- R81, R86: the selector `rst || start` of format H. -/
def Obligations.HostSelectorDecides : Prop :=
  ∀ (start : Bool) (key pt : Port),
    decode (.host ⟨true, start, key, pt⟩) = .ok .reset ∧
    decode (.host ⟨false, true, key, pt⟩) = .ok (.start key pt) ∧
    decode (.host ⟨false, false, key, pt⟩) = .error .noOperation

/-- R83, R85: words written out from the encoding table, with their instructions. -/
def Obligations.WrittenOutWordsDecode : Prop :=
  decode (.uop 0b00010000) = .ok .kld ∧ decode (.uop 0b00100001) = .ok (.kexp 1) ∧
  decode (.uop 0b00101010) = .ok (.kexp 10) ∧ decode (.uop 0b00110000) = .ok (.ark 0) ∧
  decode (.uop 0b00111010) = .ok (.ark 10) ∧ decode (.uop 0b01000000) = .ok .sub ∧
  decode (.uop 0b01010000) = .ok .shr ∧ decode (.uop 0b01100000) = .ok .mix ∧
  decode (.uop 0b01110000) = .ok .fin

/-- R92: the pseudo-operations have the listed lengths and `ENCRYPT` is UPROG. -/
def Obligations.EncryptPseudoOperationIsUprog : Prop :=
  expandOps.length = 11 ∧ initialOps.length = 1 ∧ (∀ r, (roundOps r).length = 4) ∧
  finalOps.length = 3 ∧ encryptOps.length = 52 ∧
  encryptOps.map encode = uprogTable.toList.map .uop

/-! ## Tables -/

/-- R52: the closed form of UPROG, and that it has 52 entries. -/
def Obligations.UprogClosedForm : Prop :=
  romUprog 0 = some 0x10 ∧
  (∀ a, 1 ≤ a → a ≤ 10 → romUprog a = some (BitVec.ofNat 8 (0x20 + a))) ∧
  romUprog 11 = some 0x30 ∧
  (∀ a, 12 ≤ a → a ≤ 47 → romUprog a = some (
    if (a - 12) % 4 = 0 then 0x40
    else if (a - 12) % 4 = 1 then 0x50
    else if (a - 12) % 4 = 2 then 0x60
    else BitVec.ofNat 8 (0x30 + ((a - 12) / 4 + 1)))) ∧
  romUprog 48 = some 0x40 ∧ romUprog 49 = some 0x50 ∧ romUprog 50 = some 0x3a ∧
  romUprog 51 = some 0x70 ∧ ∀ a, 52 ≤ a → romUprog a = none

/-- R51: RCON holds the powers of 0x02 in the top byte, ten of them. -/
def Obligations.RconHoldsThePowersOfTwo : Prop :=
  (∀ a, a < 10 → romRcon a = some (wordOf (xtimeIter 0x01 a) 0 0 0)) ∧
  (∀ a, 10 ≤ a → romRcon a = none)

/-- R111: the S-box is a bijection with no fixed point and no opposite fixed point. -/
def Obligations.SboxIsABijectionWithoutFixedPoints : Prop :=
  Function.Bijective sbox ∧ ∀ b, sbox b ≠ b ∧ sbox b ≠ b ^^^ 0xff

/-- R50's cross-check of the whole table (the spec marks it 'from general knowledge'): each entry is
the affine map of the field inverse of its index. -/
def Obligations.SboxIsTheAffineMapOfTheInverse : Prop :=
  ∀ a : Byte, ∃ x : Byte, (a = 0 → x = 0) ∧ (a ≠ 0 → fieldMul a x = 0x01) ∧
    ∀ i, i < 8 → (sbox a).getLsbD i = affineBit x i

/-! ## Functions -/

/-- R140's equivalent form of `xtime`, on a 9-bit intermediate, and that it is a bijection. -/
def Obligations.XtimeByTheNinthBit : Prop :=
  (∀ b : Byte,
    let t : BitVec 9 := b.zeroExtend 9 <<< 1
    xtime b = t.extractLsb' 0 8 ^^^ (if t.getLsbD 8 then 0x1b else 0x00)) ∧
  Function.Bijective xtime

/-- R141: `mul1`, `mul2`, `mul3` are the products by 1, 2, 3 and are XOR-linear. -/
def Obligations.SmallMultipliersAreLinearProducts : Prop :=
  ∀ a b : Byte,
    mul1 a = a ∧ mul2 a = xtime a ∧ mul3 a = xtime a ^^^ a ∧
    mul1 a = fieldMul a 0x01 ∧ mul2 a = fieldMul a 0x02 ∧ mul3 a = fieldMul a 0x03 ∧
    mul1 (a ^^^ b) = mul1 a ^^^ mul1 b ∧ mul2 (a ^^^ b) = mul2 a ^^^ mul2 b ∧
    mul3 (a ^^^ b) = mul3 a ^^^ mul3 b

/-- R143, R144: `MixColumn` is the product with the fixed polynomial modulo `x^4 + 1` (the modulus
is marked 'from general knowledge' in R143): `b_i = XOR over j of c_((i - j) mod 4) * a_j`. -/
def Obligations.MixColumnIsThePolynomialProduct : Prop :=
  ∀ (a0 a1 a2 a3 : Byte) (i : Fin 4),
    (mixColumn a0 a1 a2 a3)[i] =
      fieldMul a0 (mixCoefficient i) ^^^ fieldMul a1 (mixCoefficient (i - 1)) ^^^
        fieldMul a2 (mixCoefficient (i - 2)) ^^^ fieldMul a3 (mixCoefficient (i - 3))

/-- R145 corner cases (a) and (b): MixColumns is XOR-linear and leaves a column of four equal bytes
unchanged. -/
def Obligations.MixColumnsIsLinearAndFixesEqualColumns : Prop :=
  (∀ a b : Block,
    mixColumns (Vector.zipWith (· ^^^ ·) a b) =
      Vector.zipWith (· ^^^ ·) (mixColumns a) (mixColumns b)) ∧
  ∀ (b : Block) (c : Fin 4) (x : Byte), (∀ r, cell b r c = x) → ∀ r, cell (mixColumns b) r c = x

/-- R136: ShiftRows has period 4, is not idempotent, has a shorter period on repeated bytes, its
second and third powers are the listed permutations, and UPROG never applies SHR twice in a row. -/
def Obligations.ShiftRowsHasPeriodFour : Prop :=
  (∀ b : Block, shiftRows (shiftRows (shiftRows (shiftRows b))) = b) ∧
  (∃ b : Block, shiftRows (shiftRows b) ≠ shiftRows b) ∧
  (∀ x : Byte, shiftRows (Vector.replicate 16 x) = Vector.replicate 16 x) ∧
  (∀ (b : Block) (i : Nat), i < 16 →
    (shiftRows (shiftRows b))[i]? = b[(9 * i) % 16]? ∧
    (shiftRows (shiftRows (shiftRows b)))[i]? = b[(13 * i) % 16]?) ∧
  ∀ a, romUprog a = some 0x50 → romUprog (a + 1) ≠ some 0x50

/-- R135 corner case (b): ShiftRows commutes with SubBytes. -/
def Obligations.ShiftRowsCommutesWithSubBytes : Prop :=
  ∀ b : Block, subBytes (shiftRows b) = shiftRows (subBytes b)

/-- R155's equivalent forms: AddRoundKey is the XOR of column words with key words, and of the two
128-bit port values; and it is its own inverse. -/
def Obligations.AddRoundKeyIsOneXor : Prop :=
  ∀ (b : Block) (k : Key),
    (∀ c : Fin 4, columnWord (addRoundKey b k) c = columnWord b c ^^^ k[c]) ∧
    packBlock (addRoundKey b k) = packBlock b ^^^ packKey k ∧
    addRoundKey (addRoundKey b k) k = b

/-- R56, with R55 for the key's bytes: the packing of the ports, byte by byte and word by word, and
back. -/
def Obligations.PortPackingIsExact : Prop :=
  (∀ (p : Port) (i : Fin 16),
    (blockOfPort p)[i] = p.extractLsb' (120 - 8 * i.val) 8 ∧
    keyByte (keyOfPort p) i = p.extractLsb' (120 - 8 * i.val) 8) ∧
  (∀ p : Port, keyOfPort p =
    #v[p.extractLsb' 96 32, p.extractLsb' 64 32, p.extractLsb' 32 32, p.extractLsb' 0 32]) ∧
  (∀ (b : Block) (i : Fin 16), (packBlock b).extractLsb' (120 - 8 * i.val) 8 = b[i]) ∧
  (∀ p : Port, packBlock (blockOfPort p) = p ∧ packKey (keyOfPort p) = p) ∧
  ∀ (b : Block) (k : Key), blockOfPort (packBlock b) = b ∧ keyOfPort (packKey k) = k

/-- R11: the helper maps are inverse to each other and follow the matrix printed row by row. -/
def Obligations.RowListingMapsAreInverse : Prop :=
  ∀ b : Block, matRows (fromRows b) = b ∧ fromRows (matRows b) = b ∧
    ∀ r c : Fin 4, b[4 * r.val + c.val]? = some (cell (fromRows b) r c) ∧
      (matRows b)[4 * r.val + c.val]? = some (cell b r c)

/-- R120, R121: the four words of one expansion step, unrolled from the previous key alone. -/
def Obligations.KeyExpandStepUnrolled : Prop :=
  ∀ (p : Key) (rc : Word),
    let t := wordOf (sbox (byteOf p[3] 1)) (sbox (byteOf p[3] 2)) (sbox (byteOf p[3] 3))
      (sbox (byteOf p[3] 0)) ^^^ p[0] ^^^ rc
    keyExpandStep p rc = #v[t, t ^^^ p[1], t ^^^ p[1] ^^^ p[2], t ^^^ p[1] ^^^ p[2] ^^^ p[3]]

/-- R122: `expand` has 11 entries, the first is the key, each later one is a step from the one
before with the next round constant. -/
def Obligations.ExpandFollowsTheRecurrence : Prop :=
  ∀ key : Key, (expand key).toList.length = 11 ∧ (expand key)[0]? = some key ∧
    ∀ (k : Nat) (p : Key) (rc : Word), 1 ≤ k → k ≤ 10 → (expand key)[k - 1]? = some p →
      romRcon (k - 1) = some rc → (expand key)[k]? = some (keyExpandStep p rc)

/-- R168: `encrypt` is the pipeline, whatever names the intermediate states have. -/
def Obligations.EncryptIsThePipeline : Prop :=
  ∀ (pt : Block) (key : Key) (X : Nat → Block) (rk : Nat → Key),
    (∀ k, k ≤ 10 → (expand key)[k]? = some (rk k)) →
    X 0 = addRoundKey pt (rk 0) →
    (∀ r, 1 ≤ r → r ≤ 9 →
      X r = addRoundKey (mixColumns (shiftRows (subBytes (X (r - 1))))) (rk r)) →
    encrypt pt key = addRoundKey (shiftRows (subBytes (X 9))) (rk 10)

/-- R169: for a fixed key `encrypt` is a bijection on blocks (the spec derives it, with the
bijectivity of MixColumns from general knowledge). -/
def Obligations.EncryptIsABijectionForEachKey : Prop :=
  ∀ key : Key, Function.Bijective fun pt => encrypt pt key

/-! ## Instructions: result, completion and frame

Each says that the instruction answers a next state, which, and that it is the old state but for
the fields named. -/

/-- R123. -/
def Obligations.KldCopiesTheKeyIntoRoundKeyZero : Prop :=
  ∀ (s : State) (key : Key), s.legalUpc = true → s.KIN = some key →
    ∃ rk, exec .kld s = .next { s with RK := rk, upc := s.upc + 1 } ∧
      rk[0]? = some (some key) ∧ ∀ j, j ≠ 0 → rk[j]? = s.RK[j]?

/-- R124, with R51, R112, R120: the new round key word by word, every other entry of `RK` kept. -/
def Obligations.KexpDerivesRoundKey : Prop :=
  ∀ (s : State) (k : BitVec 4) (p : Key), s.legalUpc = true → 1 ≤ k.toNat → k.toNat ≤ 10 →
    s.RK[k.toNat - 1]? = some (some p) →
    ∃ rk, exec (.kexp k) s = .next { s with RK := rk, upc := s.upc + 1 } ∧
      (∀ t, t = wordOf (sbox (byteOf p[3] 1)) (sbox (byteOf p[3] 2)) (sbox (byteOf p[3] 3))
          (sbox (byteOf p[3] 0)) ^^^ p[0] ^^^ wordOf (xtimeIter 0x01 (k.toNat - 1)) 0 0 0 →
        rk[k.toNat]? =
          some (some #v[t, t ^^^ p[1], t ^^^ p[1] ^^^ p[2], t ^^^ p[1] ^^^ p[2] ^^^ p[3]])) ∧
      ∀ j, j ≠ k.toNat → rk[j]? = s.RK[j]?

/-- R155. -/
def Obligations.ArkAddsTheRoundKey : Prop :=
  ∀ (s : State) (k : BitVec 4) (key : Key) (b : Block), s.legalUpc = true → k.toNat ≤ 10 →
    s.RK[k.toNat]? = some (some key) → s.S = some b →
    ∃ b', exec (.ark k) s = .next { s with S := some b', upc := s.upc + 1 } ∧
      ∀ r c : Fin 4, cell b' r c = cell b r c ^^^ byteOf key[c] r

/-- R113, R50: entry `16*high + low` of the table replaces each byte. -/
def Obligations.SubSubstitutesEveryByte : Prop :=
  ∀ (s : State) (b : Block), s.legalUpc = true → s.S = some b →
    ∃ b', exec .sub s = .next { s with S := some b', upc := s.upc + 1 } ∧
      ∀ (i : Nat) (x : Byte), b[i]? = some x →
        b'[i]? = (sboxLowRows ++ sboxHighRows).flatten[x.toNat]?

/-- R135: on buffer indices and on matrix positions. -/
def Obligations.ShrRotatesTheRows : Prop :=
  ∀ (s : State) (b : Block), s.legalUpc = true → s.S = some b →
    ∃ b', exec .shr s = .next { s with S := some b', upc := s.upc + 1 } ∧
      (∀ i, i < 16 → b'[i]? = b[(5 * i) % 16]?) ∧
      ∀ r c c' : Fin 4, c'.val = (c.val + r.val) % 4 → cell b' r c = cell b r c'

/-- R144, R145. -/
def Obligations.MixCombinesEachColumn : Prop :=
  ∀ (s : State) (b : Block), s.legalUpc = true → s.S = some b →
    ∃ b', exec .mix s = .next { s with S := some b', upc := s.upc + 1 } ∧
      ∀ c : Fin 4,
        cell b' 0 c = xtime (cell b 0 c) ^^^ (xtime (cell b 1 c) ^^^ cell b 1 c) ^^^ cell b 2 c ^^^
          cell b 3 c ∧
        cell b' 1 c = cell b 0 c ^^^ xtime (cell b 1 c) ^^^ (xtime (cell b 2 c) ^^^ cell b 2 c) ^^^
          cell b 3 c ∧
        cell b' 2 c = cell b 0 c ^^^ cell b 1 c ^^^ xtime (cell b 2 c) ^^^
          (xtime (cell b 3 c) ^^^ cell b 3 c) ∧
        cell b' 3 c = (xtime (cell b 0 c) ^^^ cell b 0 c) ^^^ cell b 1 c ^^^ cell b 2 c ^^^
          xtime (cell b 3 c)

/-- R166, with R56 for the port: after FIN the host sees the bytes of `S` on `ct_out`. -/
def Obligations.FinPresentsTheState : Prop :=
  ∀ (s : State) (b : Block), s.legalUpc = true → s.S = some b →
    ∃ t p, exec .fin s = .next t ∧
      t = { s with
        CT := some b, done := true, S := none, KIN := none,
        RK := Vector.replicate 11 none, upc := 0, phase := .idle } ∧
      t.view = ⟨false, true, some p⟩ ∧
      ∀ i : Fin 16, p.extractLsb' (120 - 8 * i.val) 8 = b[i]

/-- R160, R161: an idle core accepts, whether `done` is 0 or 1. -/
def Obligations.StartIsAcceptedWhenIdle : Prop :=
  ∀ (s : State) (key pt : Port), s.phase = .idle → s.upc = 0 →
    ∃ kin b, exec (.start key pt) s = .next { s with
        KIN := some kin, S := some b, RK := Vector.replicate 11 none, CT := none,
        done := false, upc := 0, phase := .run } ∧
      (∀ w : Fin 4, kin[w] = key.extractLsb' (96 - 32 * w.val) 32) ∧
      ∀ i : Fin 16, b[i] = pt.extractLsb' (120 - 8 * i.val) 8

/-- R82: a START presented while the core runs changes no state. -/
def Obligations.StartIsIgnoredWhileRunning : Prop :=
  ∀ (s : State) (key pt : Port), s.phase = .run → s.upc.toNat ≤ 51 →
    exec (.start key pt) s = .next s

/-- R210, R32: RESET from every state at all. The input ports are the host's and stay. -/
def Obligations.ResetDiscardsEverything : Prop :=
  ∀ s : State,
    ∃ t, exec .reset s = .next t ∧
      t = { s with
        phase := .idle, upc := 0, done := false, S := none, KIN := none, CT := none,
        RK := Vector.replicate 11 none, resetSeen := true } ∧
      t.view = ⟨false, false, none⟩ ∧ ∀ k, k < 11 → t.RK[k]? = some none

/-- R12, R196 (d): a micro-operation that reads a register holding `⊥` faults. -/
def Obligations.ReadOfNoValueFaults : Prop :=
  ∀ s : State, s.legalUpc = true →
    (s.KIN = none → exec .kld s = .fault (.readOfNoValue .KIN)) ∧
    (∀ k : BitVec 4, 1 ≤ k.toNat → k.toNat ≤ 10 → s.RK[k.toNat - 1]? = some none →
      exec (.kexp k) s = .fault (.readOfNoValue (.RK (k.toNat - 1)))) ∧
    (∀ k : BitVec 4, s.RK[k.toNat]? = some none →
      exec (.ark k) s = .fault (.readOfNoValue (.RK k.toNat))) ∧
    (∀ (k : BitVec 4) (key : Key), s.RK[k.toNat]? = some (some key) → s.S = none →
      exec (.ark k) s = .fault (.readOfNoValue .S)) ∧
    (s.S = none → ∀ i ∈ [Instr.sub, .shr, .mix, .fin], exec i s = .fault (.readOfNoValue .S))

/-- R90, R196 (c): KEXP and ARK with an index that names nothing are refused. Where the register
read also holds `⊥`, R196 (d) holds too, and naming the index first is the model's choice
(notes/assumptions/7.md). -/
def Obligations.IndexOutOfRangeIsRefused : Prop :=
  ∀ (s : State) (i : Instr), s.legalUpc = true → i.wellFormed = false →
    exec i s = .refused .badIndex

/-- R196 (b): at an illegal sequencer position nothing but RESET has a meaning, neither as an
instruction nor as a step. Where R196 (c) or (d) holds too, naming the position first is the model's
choice (notes/assumptions/7.md). -/
def Obligations.IllegalPositionIsRefused : Prop :=
  ∀ s : State,
    ((s.phase = .run ∧ 52 ≤ s.upc.toNat) ∨ (s.phase = .idle ∧ s.upc ≠ 0)) →
    (∀ i : Instr, i ≠ .reset → exec i s = .refused .badUpc) ∧
    (s.ports.rst = false → s.resetSeen = true → step s = .refused .badUpc)

/-! ## Frames -/

/-- R22, R164: SUB, SHR, MIX and ARK write `S` and the position, nothing else. -/
def Obligations.StateMicroOperationsFrame : Prop :=
  ∀ (i : Instr) (s t : State), (i ∈ [Instr.sub, .shr, .mix] ∨ ∃ k, i = .ark k) →
    exec i s = .next t →
    t.upc = s.upc + 1 ∧ t.KIN = s.KIN ∧ t.RK = s.RK ∧ t.CT = s.CT ∧ t.phase = s.phase ∧
      t.done = s.done ∧ t.resetSeen = s.resetSeen ∧ t.ports = s.ports ∧ t.pending = s.pending

/-- R22, R28, R164: KLD and KEXP write one entry of `RK` and the position, nothing else. -/
def Obligations.KeyMicroOperationsFrame : Prop :=
  ∀ (k : BitVec 4) (s t : State),
    (k = 0 ∧ exec .kld s = .next t) ∨ exec (.kexp k) s = .next t →
    t.upc = s.upc + 1 ∧ t.S = s.S ∧ t.KIN = s.KIN ∧ t.CT = s.CT ∧ t.phase = s.phase ∧
      t.done = s.done ∧ t.resetSeen = s.resetSeen ∧ t.ports = s.ports ∧ t.pending = s.pending ∧
      ∀ j, j ≠ k.toNat → t.RK[j]? = s.RK[j]?

/-- R22, R27: no instruction writes an input port or the levels still to come, and only RESET ends
the unreset condition. -/
def Obligations.InputsAreTheHosts : Prop :=
  ∀ (i : Instr) (s t : State), exec i s = .next t →
    t.ports = s.ports ∧ t.pending = s.pending ∧ (i ≠ .reset → t.resetSeen = s.resetSeen)

/-! ## The step -/

/-- R164: a step of a running core fetches `UPROG[upc]`, decodes it and executes that. After it the
ports show the next levels. -/
def Obligations.RunningStepRunsTheFetchedMicroOperation : Prop :=
  ∀ (s : State) (u : UopWord) (i : Instr), s.ports.rst = false → s.resetSeen = true →
    s.phase = .run → romUprog s.upc.toNat = some u → decode (.uop u) = .ok i →
    step s = afterExec (exec i s)

/-- R167, R193: `rst` wins; an idle core takes START, or holds. -/
def Obligations.HostOperationPriority : Prop :=
  ∀ s : State,
    (s.ports.rst = true → step s = afterExec (exec .reset s)) ∧
    (s.ports.rst = false → s.resetSeen = true → s.phase = .idle → s.upc = 0 →
      (s.ports.start = true →
        step s = afterExec (exec (.start s.ports.key_in s.ports.pt_in) s)) ∧
      (s.ports.start = false → step s = .next s.tick))

/-- R196 (e), R212: before the first RESET the only enabled step is RESET, and it leaves the state
of R32. -/
def Obligations.OnlyResetBeforeTheFirstReset : Prop :=
  ∀ s : State, s.resetSeen = false →
    (s.ports.rst = false → step s = .refused .beforeFirstReset) ∧
    (s.ports.rst = true → ∃ t, step s = .next t ∧ t.registers = State.reset)

/-- R162: with `rst = 0` and `start = 0` an idle core keeps every register and every output, for
any number of steps, and its operation registers stay `⊥`. -/
def Obligations.IdleCoreHolds : Prop :=
  ∀ (n : Nat) (s : State), s.Inv → s.phase = .idle →
    (∀ j, j < n → (portsAt s j).rst = false ∧ (portsAt s j).start = false) →
    ∃ t, runs n s = .next t ∧ t.registers = s.registers ∧ t.view = s.view ∧
      t.S = none ∧ t.KIN = none ∧ ∀ k, k < 11 → t.RK[k]? = some none

/-- R163: what `start`, `key_in` and `pt_in` hold in a step of a running core has no effect: two
states with equal registers go on with equal registers, and the inputs still to come are those that
were to come. -/
def Obligations.StartPortsAreNotReadWhileRunning : Prop :=
  ∀ s s' : State, s.registers = s'.registers → s.phase = .run →
    s.ports.rst = false → s'.ports.rst = false →
    (∀ t, step s = .next t → ∃ t', step s' = .next t' ∧ t'.registers = t.registers ∧
      t'.ports = s'.tick.ports ∧ t'.pending = s'.tick.pending) ∧
    (∀ r, step s = .fault r → step s' = .fault r) ∧
    (∀ r, step s = .refused r → step s' = .refused r)

/-- R210: a step with `rst = 1`, in any state, and every further one, leaves the state of R32; the
step after `rst` returns to 0 may already accept a START. -/
def Obligations.ResetStepLeavesTheResetState : Prop :=
  ∀ (n : Nat) (s : State), (∀ j, j ≤ n → (portsAt s j).rst = true) →
    (∃ t, runs (n + 1) s = .next t ∧ t.registers = State.reset ∧ t.view = ⟨false, false, none⟩) ∧
    ((portsAt s (n + 1)).rst = false → (portsAt s (n + 1)).start = true →
      ∃ t, runs (n + 2) s = .next t ∧ t.phase = .run ∧ t.upc = 0 ∧
        t.KIN = some (keyOfPort (portsAt s (n + 1)).key_in) ∧
        t.S = some (blockOfPort (portsAt s (n + 1)).pt_in))

/-- How a word is placed for the next step is the model's choice (notes/assumptions/4.md); that the
step runs exactly it, and completes from reset, is the claim. -/
def Obligations.PlacedWordIsRunByTheNextStep : Prop :=
  ∀ (w : Nat) (i : Instr), decodeTableWord 8 w = some i →
    (∀ s : State, step (s.withFetchWord 8 w) = afterExec (exec i (s.withFetchWord 8 w))) ∧
    ∃ t, step (State.reset.withFetchWord 8 w) = .next t

/-! ## Invariants and whole-machine rules -/

/-- R32: the state after reset meets the invariant. -/
def Obligations.ResetStateMeetsTheInvariant : Prop := State.reset.Inv

/-- R23, R25, R26, R28, R31: every step keeps the invariant. -/
def Obligations.StepKeepsTheInvariant : Prop :=
  ∀ s t : State, s.Inv → step s = .next t → t.Inv

/-- R167, R176, R190: no step of a reset core stops. No register is read while it holds `⊥`, no
reserved word is fetched, no index is out of range, whatever the host does. -/
def Obligations.ResetCoreNeverStops : Prop :=
  ∀ s : State, s.Inv → ∃ t, step s = .next t

/-- R25, R177: the only moves of the sequencer position. -/
def Obligations.SequencerMoves : Prop :=
  ∀ s t : State, s.Inv → step s = .next t →
    (s.ports.rst = true ∧ t.phase = .idle ∧ t.upc = 0) ∨
    (s.ports.rst = false ∧ s.phase = .idle ∧ s.ports.start = true ∧ t.phase = .run ∧ t.upc = 0) ∨
    (s.ports.rst = false ∧ s.phase = .idle ∧ s.ports.start = false ∧ t.phase = .idle ∧ t.upc = 0) ∨
    (s.ports.rst = false ∧ s.phase = .run ∧ s.upc.toNat < 51 ∧ t.phase = .run ∧
      t.upc.toNat = s.upc.toNat + 1) ∨
    (s.ports.rst = false ∧ s.phase = .run ∧ s.upc.toNat = 51 ∧ t.phase = .idle ∧ t.upc = 0)

/-- R26, R61, R215: `busy` and `done` are never both 1; `done` is set by FIN's step, cleared by
accept and RESET, and unchanged otherwise; `ct_out` has a value exactly while `done` is 1, and `CT`
is written in the step that sets `done`. -/
def Obligations.FlagsFollowTheOperation : Prop :=
  ∀ s t : State, s.Inv → step s = .next t →
    (s.busy = true ↔ s.phase = .run) ∧ ¬ (s.busy = true ∧ s.done = true) ∧
    (s.ctOut ≠ none ↔ s.done = true) ∧
    (t.done = true ↔ s.ports.rst = false ∧
      ((s.phase = .run ∧ s.upc.toNat = 51) ∨
       (s.phase = .idle ∧ s.ports.start = false ∧ s.done = true))) ∧
    (t.done = true → s.done = false → t.CT = s.S ∧ t.CT ≠ none) ∧
    (t.done = true → s.done = true → t.CT = s.CT)

/-- R28: a round key that has been written is not written again in the same operation. -/
def Obligations.RoundKeysAreWrittenOnce : Prop :=
  ∀ (s t : State) (k : Nat) (key : Key), s.Inv → step s = .next t →
    s.phase = .run → t.phase = .run → s.RK[k]? = some (some key) → t.RK[k]? = some (some key)

/-- R125: after the eleven micro-operations at addresses 0 to 10, `RK` is `expand(KIN)`, and `S`
has not been touched (P2). -/
def Obligations.ScheduleIsCompleteAfterElevenSteps : Prop :=
  ∀ (s : State) (key : Key), s.Inv → s.phase = .run → s.upc = 0 → s.KIN = some key →
    (∀ j, j < 11 → (portsAt s j).rst = false) →
    ∃ t, runs 11 s = .next t ∧ t.phase = .run ∧ t.upc = 11 ∧ t.S = s.S ∧ t.KIN = some key ∧
      ∀ k, k ≤ 10 → t.RK[k]? = some (expand key)[k]?

/-- R175: an accepted START, and the 52 steps after it. -/
def Obligations.OperationComputesEncrypt : Prop :=
  ∀ s : State, s.Inv → s.phase = .idle → s.ports.rst = false → s.ports.start = true →
    ((∀ j, 1 ≤ j → j ≤ 52 → (portsAt s j).rst = false) →
      (∃ t, runs 53 s = .next t ∧
        t.CT = some (encrypt (blockOfPort s.ports.pt_in) (keyOfPort s.ports.key_in)) ∧
        t.done = true ∧ t.phase = .idle ∧ t.upc = 0 ∧ t.S = none ∧ t.KIN = none ∧
        t.RK = noSchedule) ∧
      ∀ j, 1 ≤ j → j ≤ 52 → ∃ t, runs j s = .next t ∧ t.busy = true ∧ t.done = false) ∧
    ∀ j, 1 ≤ j → j ≤ 52 → (∀ i, 1 ≤ i → i < j → (portsAt s i).rst = false) →
      (portsAt s j).rst = true →
      ∃ t, runs (j + 1) s = .next t ∧ t.registers = State.reset

/-- R211: RESET abandons an operation at whatever step it falls, FIN's included; an earlier result
is lost; and no running core shows anything on `ct_out`. -/
def Obligations.ResetAbandonsTheOperation : Prop :=
  ∀ s : State, s.Inv →
    (s.ports.rst = true →
      ∃ t, step s = .next t ∧ t.done = false ∧ t.CT = none ∧ t.S = none ∧ t.phase = .idle) ∧
    (s.phase = .run → s.view = ⟨true, false, none⟩)

/-- R220: every operation ends. From any point of it, with `rst` low, `upc` rises by one a step to
51 and the step after that is the last. -/
def Obligations.EveryOperationEnds : Prop :=
  ∀ (s : State), s.Inv → s.phase = .run →
    (∀ j, j < 52 - s.upc.toNat → (portsAt s j).rst = false) →
    (∀ j, j < 52 - s.upc.toNat → ∃ t, runs j s = .next t ∧ t.phase = .run ∧
      t.upc.toNat = s.upc.toNat + j) ∧
    ∃ t, runs (52 - s.upc.toNat) s = .next t ∧ t.phase = .idle ∧ t.upc = 0 ∧ t.done = true

/-- R178: the step after FIN may accept the next START; nothing of the operation before reaches the
next one; equal operands give equal results. -/
def Obligations.OperationsAreIndependent : Prop :=
  (∀ s : State, s.Inv → s.phase = .run → s.upc.toNat = 51 → s.ports.rst = false →
    (portsAt s 1).rst = false → (portsAt s 1).start = true →
    ∃ t, runs 2 s = .next t ∧ t.phase = .run ∧ t.upc = 0 ∧ t.CT = none ∧ t.RK = noSchedule ∧
      t.KIN = some (keyOfPort (portsAt s 1).key_in) ∧
      t.S = some (blockOfPort (portsAt s 1).pt_in)) ∧
  (∀ s s' : State, s.Inv → s'.Inv → s.phase = .idle → s'.phase = .idle → s.ports = s'.ports →
    s.pending = s'.pending → s.ports.rst = false → s.ports.start = true → step s = step s') ∧
  ∀ s s' : State, s.Inv → s'.Inv → s.phase = .idle → s'.phase = .idle →
    s.ports.start = true → s'.ports.start = true → s.ports.key_in = s'.ports.key_in →
    s.ports.pt_in = s'.ports.pt_in →
    (∀ j, j ≤ 52 → (portsAt s j).rst = false ∧ (portsAt s' j).rst = false) →
    ∃ t t', runs 53 s = .next t ∧ runs 53 s' = .next t' ∧ t.CT = t'.CT ∧ t.CT ≠ none ∧
      t.view = t'.view
end

