-- ==== Sys2Proof/Laws/State.lean ====
section
/-! SUPPORT. The small lemmas of State: one for each field and each register update of
Machine/Ops.lean and Machine/Flags.lean, so that no later proof unfolds a record update. -/

namespace Sys2Proof.Machine

section
variable (s : State) (b : Block)
@[simp] theorem writeS_S : (s.writeS b).S = some b := rfl
@[simp] theorem writeS_KIN : (s.writeS b).KIN = s.KIN := rfl
@[simp] theorem writeS_RK : (s.writeS b).RK = s.RK := rfl
@[simp] theorem writeS_CT : (s.writeS b).CT = s.CT := rfl
@[simp] theorem writeS_phase : (s.writeS b).phase = s.phase := rfl
@[simp] theorem writeS_upc : (s.writeS b).upc = s.upc := rfl
@[simp] theorem writeS_done : (s.writeS b).done = s.done := rfl
@[simp] theorem writeS_resetSeen : (s.writeS b).resetSeen = s.resetSeen := rfl
@[simp] theorem writeS_ports : (s.writeS b).ports = s.ports := rfl
@[simp] theorem writeS_pending : (s.writeS b).pending = s.pending := rfl
end

section
variable (s : State) (k : Key)
@[simp] theorem writeKIN_S : (s.writeKIN k).S = s.S := rfl
@[simp] theorem writeKIN_KIN : (s.writeKIN k).KIN = some k := rfl
@[simp] theorem writeKIN_RK : (s.writeKIN k).RK = s.RK := rfl
@[simp] theorem writeKIN_CT : (s.writeKIN k).CT = s.CT := rfl
@[simp] theorem writeKIN_phase : (s.writeKIN k).phase = s.phase := rfl
@[simp] theorem writeKIN_upc : (s.writeKIN k).upc = s.upc := rfl
@[simp] theorem writeKIN_done : (s.writeKIN k).done = s.done := rfl
@[simp] theorem writeKIN_resetSeen : (s.writeKIN k).resetSeen = s.resetSeen := rfl
@[simp] theorem writeKIN_ports : (s.writeKIN k).ports = s.ports := rfl
@[simp] theorem writeKIN_pending : (s.writeKIN k).pending = s.pending := rfl
end

section
variable (s : State) (i : Nat) (k : Key)
@[simp] theorem writeRK_S : (s.writeRK i k).S = s.S := rfl
@[simp] theorem writeRK_KIN : (s.writeRK i k).KIN = s.KIN := rfl
@[simp] theorem writeRK_RK : (s.writeRK i k).RK = s.RK.setIfInBounds i (some k) := rfl
@[simp] theorem writeRK_CT : (s.writeRK i k).CT = s.CT := rfl
@[simp] theorem writeRK_phase : (s.writeRK i k).phase = s.phase := rfl
@[simp] theorem writeRK_upc : (s.writeRK i k).upc = s.upc := rfl
@[simp] theorem writeRK_done : (s.writeRK i k).done = s.done := rfl
@[simp] theorem writeRK_resetSeen : (s.writeRK i k).resetSeen = s.resetSeen := rfl
@[simp] theorem writeRK_ports : (s.writeRK i k).ports = s.ports := rfl
@[simp] theorem writeRK_pending : (s.writeRK i k).pending = s.pending := rfl
end

section
variable (s : State) (b : Block)
@[simp] theorem writeCT_S : (s.writeCT b).S = s.S := rfl
@[simp] theorem writeCT_KIN : (s.writeCT b).KIN = s.KIN := rfl
@[simp] theorem writeCT_RK : (s.writeCT b).RK = s.RK := rfl
@[simp] theorem writeCT_CT : (s.writeCT b).CT = some b := rfl
@[simp] theorem writeCT_phase : (s.writeCT b).phase = s.phase := rfl
@[simp] theorem writeCT_upc : (s.writeCT b).upc = s.upc := rfl
@[simp] theorem writeCT_done : (s.writeCT b).done = s.done := rfl
@[simp] theorem writeCT_resetSeen : (s.writeCT b).resetSeen = s.resetSeen := rfl
@[simp] theorem writeCT_ports : (s.writeCT b).ports = s.ports := rfl
@[simp] theorem writeCT_pending : (s.writeCT b).pending = s.pending := rfl
end

section
variable (s : State)
@[simp] theorem discardOperands_S : (s.discardOperands).S = none := rfl
@[simp] theorem discardOperands_KIN : (s.discardOperands).KIN = none := rfl
@[simp] theorem discardOperands_RK : (s.discardOperands).RK = s.RK := rfl
@[simp] theorem discardOperands_CT : (s.discardOperands).CT = s.CT := rfl
@[simp] theorem discardOperands_phase : (s.discardOperands).phase = s.phase := rfl
@[simp] theorem discardOperands_upc : (s.discardOperands).upc = s.upc := rfl
@[simp] theorem discardOperands_done : (s.discardOperands).done = s.done := rfl
@[simp] theorem discardOperands_resetSeen : (s.discardOperands).resetSeen = s.resetSeen := rfl
@[simp] theorem discardOperands_ports : (s.discardOperands).ports = s.ports := rfl
@[simp] theorem discardOperands_pending : (s.discardOperands).pending = s.pending := rfl
end

section
variable (s : State)
@[simp] theorem discardRK_S : (s.discardRK).S = s.S := rfl
@[simp] theorem discardRK_KIN : (s.discardRK).KIN = s.KIN := rfl
@[simp] theorem discardRK_RK : (s.discardRK).RK = noSchedule := rfl
@[simp] theorem discardRK_CT : (s.discardRK).CT = s.CT := rfl
@[simp] theorem discardRK_phase : (s.discardRK).phase = s.phase := rfl
@[simp] theorem discardRK_upc : (s.discardRK).upc = s.upc := rfl
@[simp] theorem discardRK_done : (s.discardRK).done = s.done := rfl
@[simp] theorem discardRK_resetSeen : (s.discardRK).resetSeen = s.resetSeen := rfl
@[simp] theorem discardRK_ports : (s.discardRK).ports = s.ports := rfl
@[simp] theorem discardRK_pending : (s.discardRK).pending = s.pending := rfl
end

section
variable (s : State)
@[simp] theorem discardCT_S : (s.discardCT).S = s.S := rfl
@[simp] theorem discardCT_KIN : (s.discardCT).KIN = s.KIN := rfl
@[simp] theorem discardCT_RK : (s.discardCT).RK = s.RK := rfl
@[simp] theorem discardCT_CT : (s.discardCT).CT = none := rfl
@[simp] theorem discardCT_phase : (s.discardCT).phase = s.phase := rfl
@[simp] theorem discardCT_upc : (s.discardCT).upc = s.upc := rfl
@[simp] theorem discardCT_done : (s.discardCT).done = s.done := rfl
@[simp] theorem discardCT_resetSeen : (s.discardCT).resetSeen = s.resetSeen := rfl
@[simp] theorem discardCT_ports : (s.discardCT).ports = s.ports := rfl
@[simp] theorem discardCT_pending : (s.discardCT).pending = s.pending := rfl
end

section
variable (s : State)
@[simp] theorem raiseDone_S : (s.raiseDone).S = s.S := rfl
@[simp] theorem raiseDone_KIN : (s.raiseDone).KIN = s.KIN := rfl
@[simp] theorem raiseDone_RK : (s.raiseDone).RK = s.RK := rfl
@[simp] theorem raiseDone_CT : (s.raiseDone).CT = s.CT := rfl
@[simp] theorem raiseDone_phase : (s.raiseDone).phase = s.phase := rfl
@[simp] theorem raiseDone_upc : (s.raiseDone).upc = s.upc := rfl
@[simp] theorem raiseDone_done : (s.raiseDone).done = true := rfl
@[simp] theorem raiseDone_resetSeen : (s.raiseDone).resetSeen = s.resetSeen := rfl
@[simp] theorem raiseDone_ports : (s.raiseDone).ports = s.ports := rfl
@[simp] theorem raiseDone_pending : (s.raiseDone).pending = s.pending := rfl
end

section
variable (s : State)
@[simp] theorem clearDone_S : (s.clearDone).S = s.S := rfl
@[simp] theorem clearDone_KIN : (s.clearDone).KIN = s.KIN := rfl
@[simp] theorem clearDone_RK : (s.clearDone).RK = s.RK := rfl
@[simp] theorem clearDone_CT : (s.clearDone).CT = s.CT := rfl
@[simp] theorem clearDone_phase : (s.clearDone).phase = s.phase := rfl
@[simp] theorem clearDone_upc : (s.clearDone).upc = s.upc := rfl
@[simp] theorem clearDone_done : (s.clearDone).done = false := rfl
@[simp] theorem clearDone_resetSeen : (s.clearDone).resetSeen = s.resetSeen := rfl
@[simp] theorem clearDone_ports : (s.clearDone).ports = s.ports := rfl
@[simp] theorem clearDone_pending : (s.clearDone).pending = s.pending := rfl
end

section
variable (s : State)
@[simp] theorem advance_S : (s.advance).S = s.S := rfl
@[simp] theorem advance_KIN : (s.advance).KIN = s.KIN := rfl
@[simp] theorem advance_RK : (s.advance).RK = s.RK := rfl
@[simp] theorem advance_CT : (s.advance).CT = s.CT := rfl
@[simp] theorem advance_phase : (s.advance).phase = s.phase := rfl
@[simp] theorem advance_upc : (s.advance).upc = s.upc + 1 := rfl
@[simp] theorem advance_done : (s.advance).done = s.done := rfl
@[simp] theorem advance_resetSeen : (s.advance).resetSeen = s.resetSeen := rfl
@[simp] theorem advance_ports : (s.advance).ports = s.ports := rfl
@[simp] theorem advance_pending : (s.advance).pending = s.pending := rfl
end

section
variable (s : State)
@[simp] theorem enterRun_S : (s.enterRun).S = s.S := rfl
@[simp] theorem enterRun_KIN : (s.enterRun).KIN = s.KIN := rfl
@[simp] theorem enterRun_RK : (s.enterRun).RK = s.RK := rfl
@[simp] theorem enterRun_CT : (s.enterRun).CT = s.CT := rfl
@[simp] theorem enterRun_phase : (s.enterRun).phase = .run := rfl
@[simp] theorem enterRun_upc : (s.enterRun).upc = 0 := rfl
@[simp] theorem enterRun_done : (s.enterRun).done = s.done := rfl
@[simp] theorem enterRun_resetSeen : (s.enterRun).resetSeen = s.resetSeen := rfl
@[simp] theorem enterRun_ports : (s.enterRun).ports = s.ports := rfl
@[simp] theorem enterRun_pending : (s.enterRun).pending = s.pending := rfl
end

section
variable (s : State)
@[simp] theorem enterIdle_S : (s.enterIdle).S = s.S := rfl
@[simp] theorem enterIdle_KIN : (s.enterIdle).KIN = s.KIN := rfl
@[simp] theorem enterIdle_RK : (s.enterIdle).RK = s.RK := rfl
@[simp] theorem enterIdle_CT : (s.enterIdle).CT = s.CT := rfl
@[simp] theorem enterIdle_phase : (s.enterIdle).phase = .idle := rfl
@[simp] theorem enterIdle_upc : (s.enterIdle).upc = 0 := rfl
@[simp] theorem enterIdle_done : (s.enterIdle).done = s.done := rfl
@[simp] theorem enterIdle_resetSeen : (s.enterIdle).resetSeen = s.resetSeen := rfl
@[simp] theorem enterIdle_ports : (s.enterIdle).ports = s.ports := rfl
@[simp] theorem enterIdle_pending : (s.enterIdle).pending = s.pending := rfl
end

section
variable (s : State)
@[simp] theorem markReset_S : (s.markReset).S = s.S := rfl
@[simp] theorem markReset_KIN : (s.markReset).KIN = s.KIN := rfl
@[simp] theorem markReset_RK : (s.markReset).RK = s.RK := rfl
@[simp] theorem markReset_CT : (s.markReset).CT = s.CT := rfl
@[simp] theorem markReset_phase : (s.markReset).phase = s.phase := rfl
@[simp] theorem markReset_upc : (s.markReset).upc = s.upc := rfl
@[simp] theorem markReset_done : (s.markReset).done = s.done := rfl
@[simp] theorem markReset_resetSeen : (s.markReset).resetSeen = true := rfl
@[simp] theorem markReset_ports : (s.markReset).ports = s.ports := rfl
@[simp] theorem markReset_pending : (s.markReset).pending = s.pending := rfl
end

section
variable (s : State)
@[simp] theorem tick_S : s.tick.S = s.S := by unfold State.tick; split <;> rfl
@[simp] theorem tick_KIN : s.tick.KIN = s.KIN := by unfold State.tick; split <;> rfl
@[simp] theorem tick_RK : s.tick.RK = s.RK := by unfold State.tick; split <;> rfl
@[simp] theorem tick_CT : s.tick.CT = s.CT := by unfold State.tick; split <;> rfl
@[simp] theorem tick_phase : s.tick.phase = s.phase := by unfold State.tick; split <;> rfl
@[simp] theorem tick_upc : s.tick.upc = s.upc := by unfold State.tick; split <;> rfl
@[simp] theorem tick_done : s.tick.done = s.done := by unfold State.tick; split <;> rfl
@[simp] theorem tick_resetSeen : s.tick.resetSeen = s.resetSeen := by
  unfold State.tick; split <;> rfl
theorem tick_ports : s.tick.ports = s.pending.headD s.ports := by
  unfold State.tick; split <;> simp_all
theorem tick_pending : s.tick.pending = s.pending.tail := by
  unfold State.tick; split <;> simp_all
end

section
variable (s : State)
@[simp] theorem resetRegisters_S : s.resetRegisters.S = none := rfl
@[simp] theorem resetRegisters_KIN : s.resetRegisters.KIN = none := rfl
@[simp] theorem resetRegisters_RK : s.resetRegisters.RK = noSchedule := rfl
@[simp] theorem resetRegisters_CT : s.resetRegisters.CT = none := rfl
@[simp] theorem resetRegisters_phase : s.resetRegisters.phase = .idle := rfl
@[simp] theorem resetRegisters_upc : s.resetRegisters.upc = 0 := rfl
@[simp] theorem resetRegisters_done : s.resetRegisters.done = false := rfl
@[simp] theorem resetRegisters_resetSeen : s.resetRegisters.resetSeen = true := rfl
@[simp] theorem resetRegisters_ports : s.resetRegisters.ports = s.ports := rfl
@[simp] theorem resetRegisters_pending : s.resetRegisters.pending = s.pending := rfl
end

section
variable (key pt : Port) (s : State)
@[simp] theorem accept_S : (accept key pt s).S = some (blockOfPort pt) := rfl
@[simp] theorem accept_KIN : (accept key pt s).KIN = some (keyOfPort key) := rfl
@[simp] theorem accept_RK : (accept key pt s).RK = noSchedule := rfl
@[simp] theorem accept_CT : (accept key pt s).CT = none := rfl
@[simp] theorem accept_phase : (accept key pt s).phase = .run := rfl
@[simp] theorem accept_upc : (accept key pt s).upc = 0 := rfl
@[simp] theorem accept_done : (accept key pt s).done = false := rfl
@[simp] theorem accept_resetSeen : (accept key pt s).resetSeen = s.resetSeen := rfl
@[simp] theorem accept_ports : (accept key pt s).ports = s.ports := rfl
@[simp] theorem accept_pending : (accept key pt s).pending = s.pending := rfl
end

end Sys2Proof.Machine
end

