-- ==== Sys2Proof/Laws/Ops.lean ====
section
/-! SUPPORT. What each shared operation of Machine/Ops.lean and Machine/Operands.lean can do, said
once; proofs cite these and do not unfold the operations. -/

namespace Sys2Proof.Machine

theorem legalUpc_idle {s : State} (h : s.phase = .idle) : s.legalUpc = true ↔ s.upc = 0 := by
  simp [State.legalUpc, h]

theorem legalUpc_run {s : State} (h : s.phase = .run) :
    s.legalUpc = true ↔ s.upc.toNat < 52 := by
  simp [State.legalUpc, h]

@[simp] theorem legalUpc_tick (s : State) : s.tick.legalUpc = s.legalUpc := by
  simp [State.legalUpc]

theorem atLegalUpc_legal {s : State} {k : Out} (h : s.legalUpc = true) : atLegalUpc s k = k := by
  simp [atLegalUpc, h]

theorem atLegalUpc_illegal {s : State} {k : Out} (h : s.legalUpc = false) :
    atLegalUpc s k = .refused .badUpc := by
  simp [atLegalUpc, h]

theorem atLegalUpc_next {s t : State} {k : Out} (h : atLegalUpc s k = .next t) :
    s.legalUpc = true ∧ k = .next t := by
  unfold atLegalUpc at h
  split at h
  · exact ⟨‹_›, h⟩
  · cases h

@[simp] theorem reading_some {α : Type} (r : Reg) (a : α) (k : α → Out) :
    reading r (some a) k = k a := rfl

@[simp] theorem reading_none {α : Type} (r : Reg) (k : α → Out) :
    reading r none k = .fault (.readOfNoValue r) := rfl

theorem reading_next {α : Type} {r : Reg} {v : Option α} {k : α → Out} {t : State}
    (h : reading r v k = .next t) : ∃ a, v = some a ∧ k a = .next t := by
  cases v with
  | none => cases h
  | some a => exact ⟨a, rfl, h⟩

theorem readingRK_value {s : State} {k : Nat} {key : Key} (h : s.RK[k]? = some (some key))
    (cont : Key → Out) : readingRK s k cont = cont key := by
  simp [readingRK, h]

theorem readingRK_noValue {s : State} {k : Nat} (h : s.RK[k]? = some none) (cont : Key → Out) :
    readingRK s k cont = .fault (.readOfNoValue (.RK k)) := by
  simp [readingRK, h]

theorem readingRK_badIndex {s : State} {k : Nat} (h : 11 ≤ k) (cont : Key → Out) :
    readingRK s k cont = .refused .badIndex := by
  have : s.RK[k]? = none := by simpa using h
  simp [readingRK, this]

theorem readingRK_next {s t : State} {k : Nat} {cont : Key → Out}
    (h : readingRK s k cont = .next t) :
    ∃ key, s.RK[k]? = some (some key) ∧ cont key = .next t := by
  unfold readingRK at h
  split at h
  · cases h
  · next v hv =>
    obtain ⟨key, rfl, hk⟩ := reading_next h
    exact ⟨key, hv, hk⟩

theorem readingRcon_value {a : Nat} (h : a < 10) (cont : Word → Out) :
    readingRcon a cont = cont rconTable[a] := by
  simp [readingRcon, romRcon, h]

theorem readingRcon_badIndex {a : Nat} (h : 10 ≤ a) (cont : Word → Out) :
    readingRcon a cont = .refused .badIndex := by
  have : romRcon a = none := by simpa [romRcon] using h
  simp [readingRcon, this]

theorem readingRcon_next {a : Nat} {cont : Word → Out} {t : State}
    (h : readingRcon a cont = .next t) : ∃ w, romRcon a = some w ∧ cont w = .next t := by
  unfold readingRcon at h
  split at h
  · cases h
  · next w hw => exact ⟨w, hw, h⟩

@[simp] theorem rowOf_matrixIndex (r c : Fin 4) : rowOf (matrixIndex r c) = r := by
  ext; simp [rowOf, matrixIndex]

@[simp] theorem colOf_matrixIndex (r c : Fin 4) : colOf (matrixIndex r c) = c := by
  ext; simp [colOf, matrixIndex]; omega

@[simp] theorem matrixIndex_row_col (i : Fin 16) : matrixIndex (rowOf i) (colOf i) = i := by
  ext; simp [rowOf, colOf, matrixIndex]; omega

@[simp] theorem cell_blockOfCells (f : Fin 4 → Fin 4 → Byte) (r c : Fin 4) :
    cell (blockOfCells f) r c = f r c := by
  simp [cell, blockOfCells]

/-- Two blocks are equal when their matrix entries are. -/
theorem block_ext_cells {a b : Block} (h : ∀ r c, cell a r c = cell b r c) : a = b := by
  refine Vector.ext fun i hi => ?_
  have := h (rowOf ⟨i, hi⟩) (colOf ⟨i, hi⟩)
  simpa [cell] using this

@[simp] theorem cell_shiftRows (b : Block) (r c : Fin 4) :
    cell (shiftRows b) r c = cell b r (c + r) := by simp [shiftRows]

@[simp] theorem cell_addRoundKey (b : Block) (k : Key) (r c : Fin 4) :
    cell (addRoundKey b k) r c = cell b r c ^^^ byteOf k[c] r := by simp [addRoundKey]

@[simp] theorem cell_mixColumns (b : Block) (r c : Fin 4) :
    cell (mixColumns b) r c =
      (mixColumn (cell b 0 c) (cell b 1 c) (cell b 2 c) (cell b 3 c))[r] := by
  simp [mixColumns]

@[simp] theorem cell_subBytes (b : Block) (r c : Fin 4) :
    cell (subBytes b) r c = sbox (cell b r c) := by
  simp [subBytes, cell]

end Sys2Proof.Machine
end

