-- ==== Sys2Proof/Laws/Bytes.lean ====
section
/-! SUPPORT. Byte order: the bytes of a word, the word of four bytes, the columns of a block (R10,
R53, R54, R120). -/

namespace Sys2Proof.Machine

@[simp] theorem byteOf_wordOf_zero (a b c d : Byte) : byteOf (wordOf a b c d) 0 = a := by
  simp only [byteOf, wordOf]; ext i hi; simp; grind

@[simp] theorem byteOf_wordOf_one (a b c d : Byte) : byteOf (wordOf a b c d) 1 = b := by
  simp only [byteOf, wordOf]; ext i hi; simp; grind

@[simp] theorem byteOf_wordOf_two (a b c d : Byte) : byteOf (wordOf a b c d) 2 = c := by
  simp only [byteOf, wordOf]; ext i hi; simp; grind

@[simp] theorem byteOf_wordOf_three (a b c d : Byte) : byteOf (wordOf a b c d) 3 = d := by
  simp only [byteOf, wordOf]; ext i hi; simp; grind

@[simp] theorem wordOf_byteOf (w : Word) :
    wordOf (byteOf w 0) (byteOf w 1) (byteOf w 2) (byteOf w 3) = w := by
  simp only [byteOf, wordOf]; ext i hi; simp; grind

theorem wordOf_xor (a b c d a' b' c' d' : Byte) :
    wordOf (a ^^^ a') (b ^^^ b') (c ^^^ c') (d ^^^ d') =
      wordOf a b c d ^^^ wordOf a' b' c' d' := by
  simp only [wordOf]; ext i hi; simp; grind

theorem rotWord_eq_wordOf (w : Word) :
    rotWord w = wordOf (byteOf w 1) (byteOf w 2) (byteOf w 3) (byteOf w 0) := by
  simp only [rotWord, byteOf, wordOf]; ext i hi; simp; grind

@[simp] theorem byteOf_columnWord (b : Block) (r c : Fin 4) :
    byteOf (columnWord b c) r = cell b r c := by
  fin_cases r <;> simp [columnWord]

end Sys2Proof.Machine
end

