-- ==== Sys2Proof/Laws/Step.lean ====
section
/-! SUPPORT. What a step can do, said once, and the unfolding of a run. -/

namespace Sys2Proof.Machine

@[simp] theorem afterExec_next (t : State) : afterExec (.next t) = .next t.tick := rfl

theorem afterExec_eq_next {o : Out} {t : State} (h : afterExec o = .next t) :
    ∃ u, o = .next u ∧ t = u.tick := by
  cases o with
  | next u => exact ⟨u, rfl, by cases h; rfl⟩
  | fault r => cases h
  | refused r => cases h

/-- A step that answers a next state either holds, or runs the selected instruction to its end. -/
theorem step_next {s t : State} (h : step s = .next t) :
    (select s = .ok none ∧ t = s.tick) ∨
    ∃ i u, select s = .ok (some i) ∧ exec i s = .next u ∧ t = u.tick := by
  unfold step at h
  split at h
  · cases h
  · exact .inl ⟨‹_›, by cases h; rfl⟩
  · obtain ⟨u, hu, rfl⟩ := afterExec_eq_next h
    exact .inr ⟨_, u, ‹_›, hu, rfl⟩

theorem step_of_select {s : State} {i : Instr} (h : select s = .ok (some i)) :
    step s = afterExec (exec i s) := by
  simp [step, h]

theorem step_of_hold {s : State} (h : select s = .ok none) : step s = .next s.tick := by
  simp [step, h]

theorem step_of_error {s : State} {r : Refusal} (h : select s = .error r) :
    step s = .refused r := by
  simp [step, h]

theorem select_rst {s : State} (h : s.ports.rst = true) : select s = .ok (some .reset) := by
  simp [select, h]

theorem select_run {s : State} (h : s.ports.rst = false) (hr : s.resetSeen = true)
    (hp : s.phase = .run) : select s = (fetchUop s).map some := by
  simp [select, h, hr, hp]

theorem select_idle {s : State} (h : s.ports.rst = false) (hr : s.resetSeen = true)
    (hp : s.phase = .idle) (hu : s.upc = 0) : select s = .ok (decodeHost s.ports).toOption := by
  simp [select, h, hr, hp, (legalUpc_idle hp).2 hu]

@[simp] theorem runs_zero (s : State) : runs 0 s = .next s := rfl

theorem runs_succ_of_step {n : Nat} {s t : State} (h : step s = .next t) :
    runs (n + 1) s = runs n t := by
  simp only [runs, Host.Core.run]
  rw [show Sys2Proof.core.step s = .next t from h]

@[simp] theorem portsAt_zero (s : State) : portsAt s 0 = s.ports := rfl

theorem portsAt_succ (s : State) (j : Nat) : portsAt s (j + 1) = portsAt s.tick j := rfl

end Sys2Proof.Machine
end

