-- ==== Sys2Proof/Laws/Fetch.lean ====
section
/-! SUPPORT. The placed states of Machine/Fetch.lean: each position of UPROG is one of a running
operation. -/

namespace Sys2Proof.Machine

/-- A core placed at a legal position meets the invariant. -/
theorem placeAt_inv (s : State) {a : Nat} (h : a ≤ 51) : (s.placeAt a).Inv := by
  have hu : (BitVec.ofNat 6 a).toNat = a := by simp; omega
  refine ⟨rfl, ?_, rfl, rfl, nofun, _, rfl, ?_⟩
  · show (BitVec.ofNat 6 a).toNat ≤ 51
    omega
  · show scheduleBefore _ a = scheduleBefore _ (BitVec.ofNat 6 a).toNat
    rw [hu]

end Sys2Proof.Machine
end

