-- ==== Sys2Proof/Laws/PerInstr.lean ====
section
/-! SUPPORT. Statements about every instruction as syntax, one lemma for each constructor. -/

namespace Sys2Proof.Laws

/-- Whether a word is of the format and has the match and mask that `spec/opcode_table.json` gives
the row of an instruction. A format-H word is its selector `rst || start`. -/
def matchesRow : Instr → MachineWord → Bool
  | .kld, .uop u => u &&& 0xFF == 0x10
  | .kexp _, .uop u => u &&& 0xF0 == 0x20
  | .ark _, .uop u => u &&& 0xF0 == 0x30
  | .sub, .uop u => u &&& 0xFF == 0x40
  | .shr, .uop u => u &&& 0xFF == 0x50
  | .mix, .uop u => u &&& 0xFF == 0x60
  | .fin, .uop u => u &&& 0xFF == 0x70
  | .reset, .host h => h.rst
  | .start _ _, .host h => !h.rst && h.start
  | _, _ => false

/-- A well-formed instruction is encoded as a word of its own row of the table. -/
def EncodesToItsRow.Statement (i : Instr) : Prop :=
  i.wellFormed = true → matchesRow i (encode i) = true

theorem EncodesToItsRow.kld : EncodesToItsRow.Statement .kld := by
  unfold EncodesToItsRow.Statement; decide

theorem EncodesToItsRow.kexp (k : BitVec 4) : EncodesToItsRow.Statement (.kexp k) := by
  unfold EncodesToItsRow.Statement; revert k; decide

theorem EncodesToItsRow.ark (k : BitVec 4) : EncodesToItsRow.Statement (.ark k) := by
  unfold EncodesToItsRow.Statement; revert k; decide

theorem EncodesToItsRow.sub : EncodesToItsRow.Statement .sub := by
  unfold EncodesToItsRow.Statement; decide

theorem EncodesToItsRow.shr : EncodesToItsRow.Statement .shr := by
  unfold EncodesToItsRow.Statement; decide

theorem EncodesToItsRow.mix : EncodesToItsRow.Statement .mix := by
  unfold EncodesToItsRow.Statement; decide

theorem EncodesToItsRow.fin : EncodesToItsRow.Statement .fin := by
  unfold EncodesToItsRow.Statement; decide

theorem EncodesToItsRow.reset : EncodesToItsRow.Statement .reset := by
  unfold EncodesToItsRow.Statement; decide

theorem EncodesToItsRow.start (key pt : Port) : EncodesToItsRow.Statement (.start key pt) :=
  fun _ => rfl

end Sys2Proof.Laws
end

