-- ==== Sys2Proof/Machine/Timing.lean ====
section
/-! DEFINITION. Clock edges of the reference timing (spec R8, R218, R219). A step of the model is
the accept of a START, one micro-operation, a hold or a RESET; how many clock cycles a
micro-operation takes is the open parameter `UOP_CYCLES`, and nothing else in the model reads it. -/

namespace Sys2Proof.Machine

/-- Clock edges from the one that accepts a START up to and including the one that executes FIN: one
accept edge and `uopCycles` edges for each micro-operation of UPROG (R218). -/
def operationEdges (uopCycles : Nat) : Nat := 1 + Config.UPROG_N * uopCycles

/-- The same for an implementation of the open parameter's value (R8). -/
def implementationEdges : Nat := operationEdges Config.UOP_CYCLES

end Sys2Proof.Machine
end

