-- ==== Sys2Proof/Tests/Slice0.lean ====
section
/-! SUPPORT. Tests. Expected values come from the spec's worked examples and vectors (file
95_test_vectors.md and the rules named), and words are written out from the encoding of R83, R85.
The witnesses at the end meet the hypotheses of the statements of the same name. -/

namespace Sys2Proof.Tests

open Sys2Proof.Machine

set_option maxRecDepth 20000

/-! ## Well-formedness: each check refuses an ill-formed term -/

theorem test_kexp_zero_ill_formed : (Instr.kexp 0).wellFormed = false := by decide
theorem test_kexp_eleven_ill_formed : (Instr.kexp 11).wellFormed = false := by decide
theorem test_kexp_ends_well_formed :
    (Instr.kexp 1).wellFormed = true ∧ (Instr.kexp 10).wellFormed = true := by decide
theorem test_ark_eleven_ill_formed : (Instr.ark 11).wellFormed = false := by decide
theorem test_ark_ends_well_formed :
    (Instr.ark 0).wellFormed = true ∧ (Instr.ark 10).wellFormed = true := by decide

/-! ## Decoding: one word of each constructor, bit by bit (R83, R85, R86) -/

theorem test_decode_kld : decode (.uop 0b00010000) = .ok .kld := by decide
theorem test_decode_kexp : decode (.uop 0b00101001) = .ok (.kexp 9) := by decide
theorem test_decode_ark : decode (.uop 0b00111010) = .ok (.ark 10) := by decide
theorem test_decode_sub : decode (.uop 0b01000000) = .ok .sub := by decide
theorem test_decode_shr : decode (.uop 0b01010000) = .ok .shr := by decide
theorem test_decode_mix : decode (.uop 0b01100000) = .ok .mix := by decide
theorem test_decode_fin : decode (.uop 0b01110000) = .ok .fin := by decide
theorem test_decode_reset_beats_start :
    decode (.host ⟨true, true, 5, 7⟩) = .ok .reset := by decide
theorem test_decode_start : decode (.host ⟨false, true, 5, 7⟩) = .ok (.start 5 7) := by decide
theorem test_decode_no_operation :
    decode (.host ⟨false, false, 5, 7⟩) = .error .noOperation := by decide
theorem test_decode_reserved_words :
    decode (.uop 0x00) = .error (.reservedUop 0x00) ∧
    decode (.uop 0x20) = .error (.reservedUop 0x20) ∧
    decode (.uop 0x2b) = .error (.reservedUop 0x2b) ∧
    decode (.uop 0x3b) = .error (.reservedUop 0x3b) ∧
    decode (.uop 0x41) = .error (.reservedUop 0x41) ∧
    decode (.uop 0x80) = .error (.reservedUop 0x80) := by decide
theorem test_table_words :
    decodeTableWord 8 0x2 = some .reset ∧ decodeTableWord 8 0x3 = some .reset ∧
    decodeTableWord 8 0x1 = some (.start 0 0) ∧ decodeTableWord 8 0x0 = none ∧
    decodeTableWord 8 0x21 = some (.kexp 1) ∧ decodeTableWord 8 0x20 = none ∧
    decodeTableWord 8 0x30 = some (.ark 0) ∧ decodeTableWord 9 0x110 = none := by decide

/-! ## Tables and functions -/

/-- R50, R110: the four entries the source gives, and the corners of the table. -/
theorem test_sbox_entries :
    sbox 0x19 = 0xd4 ∧ sbox 0xa0 = 0xe0 ∧ sbox 0x9a = 0xb8 ∧ sbox 0xe9 = 0x1e ∧
    sbox 0x00 = 0x63 ∧ sbox 0x53 = 0xed ∧ sbox 0x0f = 0x76 ∧ sbox 0xf0 = 0x8c ∧
    sbox 0xff = 0x16 := by decide
/-- V3 and section 2 of the vectors. -/
theorem test_subWord : subWord 0x19a09ae9 = 0xd4e0b81e ∧ subWord 0x00010253 = 0x637c77ed := by
  decide
/-- R120. -/
theorem test_rotWord : rotWord 0x09cf4f3c = 0xcf4f3c09 ∧ rotWord 0xff000000 = 0x000000ff := by
  decide
/-- R140, R141. -/
theorem test_xtime_and_mul3 :
    xtime 0x7f = 0xfe ∧ xtime 0x80 = 0x1b ∧ xtime 0xff = 0xe5 ∧ xtime 0x8d = 0x01 ∧
    mul3 0xbf = 0xda ∧ mul3 0x80 = 0x9b := by decide
/-- R144. -/
theorem test_mixColumn :
    mixColumn 0xdb 0x13 0x53 0x45 = #v[0x8e, 0x4d, 0xa1, 0xbc] ∧
    mixColumn 0x00 0x80 0x00 0x00 = #v[0x9b, 0x1b, 0x80, 0x80] := by decide
/-- R7: the sizes of the tables. -/
theorem test_table_sizes :
    sboxRows.flatten.length = Config.SBOX_N ∧ rconTable.size = Config.RCON_N ∧
    uprogTable.size = Config.UPROG_N ∧ Config.NRK = Config.NR + 1 := by decide
/-- The source's key of V2 and plaintext of V7. -/
def vectorKey : Key := #v[0x2b7e1516, 0x28aed2a6, 0xabf71588, 0x09cf4f3c]
def vectorText : Block :=
  #v[0x32, 0x43, 0xf6, 0xa8, 0x88, 0x5a, 0x30, 0x8d, 0x31, 0x31, 0x98, 0xa2, 0xe0, 0x37, 0x07, 0x34]
/-- R56, R161: the ports of V7. -/
theorem test_port_unpacking :
    keyOfPort 0x2b7e151628aed2a6abf7158809cf4f3c = vectorKey ∧
    blockOfPort 0x3243f6a8885a308d313198a2e0370734 = vectorText := by decide
/-- V2: the last word of the last round key. -/
theorem test_expand_last_word : (expand vectorKey)[10][3] = 0xb6630ca6 := by decide
/-- V7, on the source's row-by-row listing (R11). -/
theorem test_encrypt_source_vector :
    matRows (encrypt (fromRows
      #v[0x32, 0x88, 0x31, 0xe0, 0x43, 0x5a, 0x31, 0x37, 0xf6, 0x30, 0x98, 0x07, 0xa8, 0x8d, 0xa2,
         0x34]) vectorKey) =
      #v[0x39, 0x02, 0xdc, 0x19, 0x25, 0xdc, 0x11, 0x6a, 0x84, 0x09, 0x85, 0x0b, 0x1d, 0xfb, 0x97,
         0x32] := by decide
/-- R218: 53 clock edges with one cycle a micro-operation. -/
theorem test_reference_timing : operationEdges 1 = 53 := by decide
/-- R91. -/
theorem test_listing :
    listing (.kexp 10) = "KEXP 10" ∧ listing .fin = "FIN" ∧
    listKey vectorKey = "2b7e1516 28aed2a6 abf71588 09cf4f3c" ∧
    listBlock (blockOfPort 0x000102030405060708090a0b0c0d0e0f) =
      "00 01 02 03 04 05 06 07 08 09 0a 0b 0c 0d 0e 0f" := by decide

/-! ## One instruction or one step -/

/-- The next state of an outcome, if it is one. -/
def nextOf : Out → Option State
  | .next t => some t
  | .fault _ => none
  | .refused _ => none

/-- A core at `UPROG` address `a` of an operation on `vectorKey`, with `b` in `S`. -/
def running (a : Nat) (b : Block) : State :=
  { State.reset with
    S := some b, KIN := some vectorKey, RK := scheduleBefore vectorKey a, phase := .run,
    upc := BitVec.ofNat 6 a }

/-- R123. -/
theorem test_kld :
    (nextOf (exec .kld (running 0 vectorText))).map (fun t => (t.RK[0], t.RK[1], t.upc)) =
      some (some vectorKey, none, 1) := by decide
/-- V2. -/
theorem test_kexp_first_step :
    (nextOf (exec (.kexp 1) (running 1 vectorText))).map (fun t => (t.RK[1], t.upc)) =
      some (some #v[0xa0fafe17, 0x88542cb1, 0x23a33939, 0x2a6c7605], 2) := by decide
/-- Section 2 of the vectors: `RCON[9]` on an all-zero previous key. -/
theorem test_kexp_last_constant :
    (nextOf (exec (.kexp 10) { running 10 vectorText with
        RK := noSchedule.set 9 (some #v[0, 0, 0, 0]) })).map (fun t => t.RK[10]) =
      some (some #v[0x55636363, 0x55636363, 0x55636363, 0x55636363]) := by decide
/-- V6, in buffer order. -/
theorem test_ark :
    (nextOf (exec (.ark 1) (running 15 #v[0x04, 0x66, 0x81, 0xe5, 0xe0, 0xcb, 0x19, 0x9a, 0x48, 0xf8,
        0xd3, 0x7a, 0x28, 0x06, 0x26, 0x4c]))).map (fun t => t.S) =
      some (some #v[0xa4, 0x9c, 0x7f, 0xf2, 0x68, 0x9f, 0x35, 0x2b, 0x6b, 0x5b, 0xea, 0x43, 0x02,
        0x6a, 0x50, 0x49]) := by decide
/-- R113. -/
theorem test_sub :
    (nextOf (exec .sub (running 12 #v[0x19, 0x3d, 0xe3, 0xbe, 0xa0, 0xf4, 0xe2, 0x2b, 0x9a, 0xc6,
        0x8d, 0x2a, 0xe9, 0xf8, 0x48, 0x08]))).map (fun t => t.S) =
      some (some #v[0xd4, 0x27, 0x11, 0xae, 0xe0, 0xbf, 0x98, 0xf1, 0xb8, 0xb4, 0x5d, 0xe5, 0x1e,
        0x41, 0x52, 0x30]) := by decide
/-- V4. -/
theorem test_shr :
    (nextOf (exec .shr (running 13 #v[0x00, 0x01, 0x02, 0x03, 0x04, 0x05, 0x06, 0x07, 0x08, 0x09,
        0x0a, 0x0b, 0x0c, 0x0d, 0x0e, 0x0f]))).map (fun t => t.S) =
      some (some #v[0x00, 0x05, 0x0a, 0x0f, 0x04, 0x09, 0x0e, 0x03, 0x08, 0x0d, 0x02, 0x07, 0x0c,
        0x01, 0x06, 0x0b]) := by decide
/-- V5, in buffer order. -/
theorem test_mix :
    (nextOf (exec .mix (running 14 #v[0xd4, 0xbf, 0x5d, 0x30, 0xe0, 0xb4, 0x52, 0xae, 0xb8, 0x41,
        0x11, 0xf1, 0x1e, 0x27, 0x98, 0xe5]))).map (fun t => t.S) =
      some (some #v[0x04, 0x66, 0x81, 0xe5, 0xe0, 0xcb, 0x19, 0x9a, 0x48, 0xf8, 0xd3, 0x7a, 0x28,
        0x06, 0x26, 0x4c]) := by decide
/-- R166, and section 7, P1 of the vectors for the value on the port. -/
theorem test_fin :
    (nextOf (step (running 51 #v[0x39, 0x25, 0x84, 0x1d, 0x02, 0xdc, 0x09, 0xfb, 0xdc, 0x11, 0x85,
        0x97, 0x19, 0x6a, 0x0b, 0x32]))).map (fun t => (t.view, t.S.isNone && t.KIN.isNone)) =
      some (⟨false, true, some 0x3925841d02dc09fbdc118597196a0b32⟩, true) := by decide
/-- R161. -/
theorem test_start_accepted :
    (nextOf (step { State.reset with ports := ⟨false, true, 0x2b7e151628aed2a6abf7158809cf4f3c,
        0x3243f6a8885a308d313198a2e0370734⟩ })).map (fun t => (t.KIN, t.S, t.phase, t.upc)) =
      some (some vectorKey, some vectorText, .run, 0) := by decide
/-- P7, step 3: `start` while running is ignored and KLD runs. -/
theorem test_start_while_running :
    (nextOf (step { running 0 vectorText with ports := ⟨false, true, 0, 0⟩ })).map
        (fun t => (t.KIN, t.S, t.RK[0], t.upc)) =
      some (some vectorKey, some vectorText, some vectorKey, 1) := by decide
/-- P7, step 181: RESET wins over `start`, in the middle of an operation. -/
theorem test_reset_wins :
    (nextOf (step { running 18 vectorText with ports := ⟨true, true, 0, 0⟩ })).map
        (fun t => t.registers) = some State.reset := by decide
/-- R27: the levels of the ports follow the host, and stay when it has no more. -/
theorem test_ports_follow_the_host :
    (nextOf (step { State.reset with pending := [⟨false, true, 1, 2⟩] })).map
        (fun t => (t.ports.key_in, t.pending)) = some (1, []) ∧
    (nextOf (step { State.reset with ports := ⟨false, false, 3, 4⟩ })).map
        (fun t => t.ports.key_in) = some 3 := by decide
/-- R196 (a) to (e), as steps and as instructions. -/
theorem test_stops :
    (step { running 0 vectorText with upc := 52 } matches .refused .badUpc) = true ∧
    (step { State.reset with upc := 1 } matches .refused .badUpc) = true ∧
    (step { State.reset with resetSeen := false } matches .refused .beforeFirstReset) = true ∧
    (exec (.ark 11) (running 11 vectorText) matches .refused .badIndex) = true ∧
    (exec (.kexp 0) (running 1 vectorText) matches .refused .badIndex) = true ∧
    (exec .sub { running 12 vectorText with S := none } matches .fault (.readOfNoValue .S)) = true := by
  decide

/-! ## Witnesses: states and operands that meet the hypotheses of the statements -/

/-- An idle core whose host presents a START and then keeps `start` low. -/
def starting : State :=
  { State.reset with ports := ⟨false, true, 1, 2⟩, pending := [quietPorts] }

/-- A core placed at `UPROG` address `a` of an operation. -/
def placed (a : Nat) : State := State.reset.placeAt a

/-- The index-0 to index-15 block. -/
def countingBlock : Block := Vector.ofFn fun i => BitVec.ofNat 8 i.val

theorem starting_inv : starting.Inv := ⟨rfl, rfl, rfl, rfl, rfl, rfl⟩

theorem reset_inv : State.reset.Inv := ⟨rfl, rfl, rfl, rfl, rfl, rfl⟩

theorem placed_inv_zero : (placed 0).Inv := placeAt_inv _ (by omega)

theorem placed_inv_last : (placed 51).Inv := placeAt_inv _ (by omega)

theorem witness_DecodeOfEncodeIsTheInstruction :
    (Instr.kexp 10).wellFormed = true ∧ (Instr.start 1 2).wellFormed = true := by decide

theorem witness_IllFormedIndexEncodesToAReservedWord :
    (Instr.kexp 0).wellFormed = false ∧ (Instr.kexp 15).wellFormed = false ∧
    (Instr.ark 11).wellFormed = false := by decide

theorem witness_DecodedUopEncodesBack : decodeUop 0x2a = .ok (.kexp 10) := by decide

theorem witness_MixColumnsIsLinearAndFixesEqualColumns :
    ∀ r, cell (Vector.replicate 16 0xc6) r 3 = 0xc6 := by decide

theorem witness_ExpandFollowsTheRecurrence :
    (∃ p rc, (expand vectorKey)[0]? = some p ∧ romRcon 0 = some rc) ∧
    ∃ p rc, (expand vectorKey)[9]? = some p ∧ romRcon 9 = some rc :=
  ⟨⟨_, _, rfl, rfl⟩, _, _, rfl, rfl⟩

/-- The states of R168's pipeline as one function, for the witness below. -/
def pipelineStates (pt : Block) (rk : Nat → Key) : Nat → Block
  | 0 => addRoundKey pt (rk 0)
  | r + 1 => addRoundKey (mixColumns (shiftRows (subBytes (pipelineStates pt rk r)))) (rk (r + 1))

theorem witness_EncryptIsThePipeline :
    ∃ (X : Nat → Block) (rk : Nat → Key),
      (∀ k, k ≤ 10 → (expand vectorKey)[k]? = some (rk k)) ∧
      X 0 = addRoundKey vectorText (rk 0) ∧
      ∀ r, 1 ≤ r → r ≤ 9 →
        X r = addRoundKey (mixColumns (shiftRows (subBytes (X (r - 1))))) (rk r) := by
  have hrk : ∀ k, k ≤ 10 → (expand vectorKey)[k]? = some ((expand vectorKey)[k]?.getD vectorKey) := by
    intro k hk
    simp [Nat.lt_succ_of_le hk]
  refine ⟨pipelineStates vectorText fun k => (expand vectorKey)[k]?.getD vectorKey,
    fun k => (expand vectorKey)[k]?.getD vectorKey, hrk, rfl, ?_⟩
  intro r h1 _
  obtain ⟨q, rfl⟩ : ∃ q, r = q + 1 := ⟨r - 1, by omega⟩
  rw [Nat.add_sub_cancel, pipelineStates]

theorem witness_KldCopiesTheKeyIntoRoundKeyZero :
    (running 0 vectorText).legalUpc = true ∧ (running 0 vectorText).KIN = some vectorKey :=
  ⟨rfl, rfl⟩

theorem witness_KexpDerivesRoundKey :
    (running 10 vectorText).legalUpc = true ∧
    (∃ p, (running 10 vectorText).RK[(10 : BitVec 4).toNat - 1]? = some (some p)) ∧
    ∃ p, (running 10 vectorText).RK[(1 : BitVec 4).toNat - 1]? = some (some p) :=
  ⟨rfl, ⟨_, rfl⟩, _, rfl⟩

theorem witness_ArkAddsTheRoundKey :
    (running 50 vectorText).legalUpc = true ∧ (running 50 vectorText).S = some vectorText ∧
    (∃ key, (running 50 vectorText).RK[(10 : BitVec 4).toNat]? = some (some key)) ∧
    ∃ key, (running 50 vectorText).RK[(0 : BitVec 4).toNat]? = some (some key) :=
  ⟨rfl, rfl, ⟨_, rfl⟩, _, rfl⟩

theorem witness_SubSubstitutesEveryByte :
    (running 48 vectorText).legalUpc = true ∧ (running 48 vectorText).S = some vectorText ∧
    vectorText[15]? = some 0x34 := ⟨rfl, rfl, by decide⟩

theorem witness_ShrRotatesTheRows :
    (running 49 vectorText).legalUpc = true ∧ (running 49 vectorText).S = some vectorText ∧
    (1 : Fin 4).val = ((3 : Fin 4).val + (2 : Fin 4).val) % 4 := ⟨rfl, rfl, rfl⟩

theorem witness_MixCombinesEachColumn :
    (running 14 vectorText).legalUpc = true ∧ (running 14 vectorText).S = some vectorText :=
  ⟨rfl, rfl⟩

theorem witness_FinPresentsTheState :
    (running 51 vectorText).legalUpc = true ∧ (running 51 vectorText).S = some vectorText :=
  ⟨rfl, rfl⟩

theorem witness_StartIsAcceptedWhenIdle : starting.phase = .idle ∧ starting.upc = 0 := ⟨rfl, rfl⟩

theorem witness_StartIsIgnoredWhileRunning :
    (placed 51).phase = .run ∧ (placed 51).upc.toNat ≤ 51 := by decide

theorem witness_ReadOfNoValueFaults :
    State.reset.legalUpc = true ∧ State.reset.KIN = none ∧ State.reset.S = none ∧
    State.reset.RK[(1 : BitVec 4).toNat - 1]? = some none ∧
    State.reset.RK[(10 : BitVec 4).toNat - 1]? = some none ∧
    State.reset.RK[(10 : BitVec 4).toNat]? = some none ∧
    { placed 11 with S := none }.legalUpc = true ∧ { placed 11 with S := none }.S = none ∧
    ∃ key, { placed 11 with S := none }.RK[(0 : BitVec 4).toNat]? = some (some key) :=
  ⟨rfl, rfl, rfl, rfl, rfl, rfl, rfl, rfl, _, rfl⟩

theorem witness_IndexOutOfRangeIsRefused :
    (placed 11).legalUpc = true ∧ (Instr.ark 15).wellFormed = false ∧
    (Instr.kexp 0).wellFormed = false := by decide

theorem witness_IllegalPositionIsRefused :
    (∃ s : State, s.phase = .run ∧ s.upc.toNat = 52 ∧ s.ports.rst = false ∧ s.resetSeen = true) ∧
    (∃ s : State, s.phase = .run ∧ s.upc.toNat = 63 ∧ s.ports.rst = false ∧ s.resetSeen = true) ∧
    ∃ s : State, s.phase = .idle ∧ s.upc = 1 ∧ s.ports.rst = false ∧ s.resetSeen = true :=
  ⟨⟨{ placed 0 with upc := 52 }, rfl, rfl, rfl, rfl⟩,
    ⟨{ placed 0 with upc := 63 }, rfl, rfl, rfl, rfl⟩,
    { State.reset with upc := 1 }, rfl, rfl, rfl, rfl⟩

theorem witness_StateMicroOperationsFrame :
    (∃ t, exec .sub (placed 12) = .next t) ∧ ∃ t, exec (.ark 10) (placed 50) = .next t :=
  ⟨⟨_, rfl⟩, _, rfl⟩

theorem witness_KeyMicroOperationsFrame :
    (∃ t, exec .kld (placed 0) = .next t) ∧ ∃ t, exec (.kexp 10) (placed 10) = .next t :=
  ⟨⟨_, rfl⟩, _, rfl⟩

theorem witness_InputsAreTheHosts :
    (∃ t, exec .fin (placed 51) = .next t) ∧ ∃ t, exec (.start 1 2) starting = .next t :=
  ⟨⟨_, rfl⟩, _, rfl⟩

theorem witness_RunningStepRunsTheFetchedMicroOperation :
    (placed 50).ports.rst = false ∧ (placed 50).resetSeen = true ∧ (placed 50).phase = .run ∧
    romUprog (placed 50).upc.toNat = some 0x3a ∧ decode (.uop 0x3a) = .ok (.ark 10) := by decide

theorem witness_HostOperationPriority :
    (∃ s : State, s.ports.rst = true ∧ s.ports.start = true ∧ s.phase = .run) ∧
    (starting.ports.rst = false ∧ starting.resetSeen = true ∧ starting.phase = .idle ∧
      starting.upc = 0 ∧ starting.ports.start = true) ∧
    (State.reset.ports.rst = false ∧ State.reset.ports.start = false) :=
  ⟨⟨{ placed 18 with ports := ⟨true, true, 0, 0⟩ }, rfl, rfl, rfl⟩, ⟨rfl, rfl, rfl, rfl, rfl⟩,
    rfl, rfl⟩

theorem witness_OnlyResetBeforeTheFirstReset :
    (∃ s : State, s.resetSeen = false ∧ s.ports.rst = false) ∧
    ∃ s : State, s.resetSeen = false ∧ s.ports.rst = true :=
  ⟨⟨{ placed 63 with resetSeen := false }, rfl, rfl⟩,
    { State.reset with resetSeen := false, ports := ⟨true, false, 0, 0⟩ }, rfl, rfl⟩

theorem witness_IdleCoreHolds :
    State.reset.Inv ∧ State.reset.phase = .idle ∧
    ∀ j, j < 5 → (portsAt State.reset j).rst = false ∧ (portsAt State.reset j).start = false :=
  ⟨reset_inv, rfl, by decide⟩

theorem witness_StartPortsAreNotReadWhileRunning :
    (placed 7).registers = { placed 7 with ports := ⟨false, true, 8, 9⟩ }.registers ∧
    (placed 7).phase = .run ∧ (placed 7).ports.rst = false ∧ ∃ t, step (placed 7) = .next t :=
  ⟨rfl, rfl, rfl, _, rfl⟩

theorem witness_ResetStepLeavesTheResetState :
    ∃ s : State, s.phase = .run ∧ (∀ j, j ≤ 1 → (portsAt s j).rst = true) ∧
      (portsAt s 2).rst = false ∧ (portsAt s 2).start = true :=
  ⟨{ placed 51 with ports := ⟨true, true, 0, 0⟩, pending := [⟨true, false, 0, 0⟩, ⟨false, true, 1, 2⟩] },
    rfl, by decide, rfl, rfl⟩

theorem witness_PlacedWordIsRunByTheNextStep :
    decodeTableWord 8 0x01 = some (.start 0 0) ∧ decodeTableWord 8 0x70 = some .fin := by decide

theorem witness_StepKeepsTheInvariant :
    (placed 51).Inv ∧ (∃ t, step (placed 51) = .next t) ∧
    starting.Inv ∧ ∃ t, step starting = .next t :=
  ⟨placed_inv_last, ⟨_, rfl⟩, starting_inv, _, rfl⟩

theorem witness_ResetCoreNeverStops : (placed 0).Inv := placed_inv_zero

theorem witness_SequencerMoves :
    (placed 50).Inv ∧ ∃ t, step (placed 50) = .next t := ⟨placeAt_inv _ (by omega), _, rfl⟩

theorem witness_FlagsFollowTheOperation :
    (placed 51).Inv ∧ (∃ t, step (placed 51) = .next t ∧ t.done = true) ∧ (placed 51).done = false ∧
    ∃ s t : State, s.Inv ∧ step s = .next t ∧ s.done = true ∧ t.done = true :=
  ⟨placed_inv_last, ⟨_, rfl, rfl⟩, rfl,
    { State.reset with done := true, CT := some vectorText }, _, ⟨rfl, rfl, rfl, rfl, rfl, rfl⟩, rfl,
    rfl, rfl⟩

theorem witness_RoundKeysAreWrittenOnce :
    (placed 11).Inv ∧ (∃ t, step (placed 11) = .next t ∧ t.phase = .run) ∧
    (placed 11).phase = .run ∧ ∃ key, (placed 11).RK[10]? = some (some key) :=
  ⟨placeAt_inv _ (by omega), ⟨_, rfl, rfl⟩, rfl, _, rfl⟩

theorem witness_ScheduleIsCompleteAfterElevenSteps :
    (placed 0).Inv ∧ (placed 0).phase = .run ∧ (placed 0).upc = 0 ∧
    (∃ key, (placed 0).KIN = some key) ∧ ∀ j, j < 11 → (portsAt (placed 0) j).rst = false :=
  ⟨placed_inv_zero, rfl, rfl, ⟨_, rfl⟩, by decide⟩

theorem witness_OperationComputesEncrypt :
    starting.Inv ∧ starting.phase = .idle ∧ starting.ports.rst = false ∧
    starting.ports.start = true ∧ ∀ j, 1 ≤ j → j ≤ 52 → (portsAt starting j).rst = false :=
  ⟨starting_inv, rfl, rfl, rfl, by decide⟩

theorem witness_OperationComputesEncrypt_abandoned :
    ∃ s : State, s.Inv ∧ s.phase = .idle ∧ s.ports.rst = false ∧ s.ports.start = true ∧
      (∀ i, 1 ≤ i → i < 52 → (portsAt s i).rst = false) ∧ (portsAt s 52).rst = true :=
  ⟨{ starting with pending := List.replicate 51 quietPorts ++ [⟨true, false, 0, 0⟩] },
    ⟨rfl, rfl, rfl, rfl, rfl, rfl⟩, rfl, rfl, rfl, by decide, by decide⟩

theorem witness_ResetAbandonsTheOperation :
    (placed 51).Inv ∧ (placed 51).phase = .run ∧
    ∃ s : State, s.Inv ∧ s.phase = .run ∧ s.ports.rst = true :=
  ⟨placed_inv_last, rfl, { placed 51 with ports := ⟨true, true, 0, 0⟩ }, placed_inv_last, rfl, rfl⟩

theorem witness_EveryOperationEnds :
    (placed 0).Inv ∧ (placed 0).phase = .run ∧
    ∀ j, j < 52 - (placed 0).upc.toNat → (portsAt (placed 0) j).rst = false :=
  ⟨placed_inv_zero, rfl, by decide⟩

theorem witness_OperationsAreIndependent_back_to_back :
    ∃ s : State, s.Inv ∧ s.phase = .run ∧ s.upc.toNat = 51 ∧ s.ports.rst = false ∧
      (portsAt s 1).rst = false ∧ (portsAt s 1).start = true :=
  ⟨{ placed 51 with pending := [⟨false, true, 1, 2⟩] }, placed_inv_last, rfl, rfl, rfl, rfl, rfl⟩

theorem witness_OperationsAreIndependent_nothing_carried :
    ∃ s s' : State, s.Inv ∧ s'.Inv ∧ s.phase = .idle ∧ s'.phase = .idle ∧ s.ports = s'.ports ∧
      s.pending = s'.pending ∧ s.ports.rst = false ∧ s.ports.start = true ∧ s ≠ s' :=
  ⟨starting, { starting with done := true, CT := some vectorText }, starting_inv,
    ⟨rfl, rfl, rfl, rfl, rfl, rfl⟩, rfl, rfl, rfl, rfl, rfl, rfl, by decide⟩

theorem witness_OperationsAreIndependent_equal_operands :
    ∃ s s' : State, s.Inv ∧ s'.Inv ∧ s.phase = .idle ∧ s'.phase = .idle ∧ s.ports.start = true ∧
      s'.ports.start = true ∧ s.ports.key_in = s'.ports.key_in ∧ s.ports.pt_in = s'.ports.pt_in ∧
      s.pending ≠ s'.pending ∧
      ∀ j, j ≤ 52 → (portsAt s j).rst = false ∧ (portsAt s' j).rst = false :=
  ⟨starting, { starting with done := true, CT := some vectorText, pending := [] }, starting_inv,
    ⟨rfl, rfl, rfl, rfl, rfl, rfl⟩, rfl, rfl, rfl, rfl, rfl, rfl, by decide, by decide⟩

end Sys2Proof.Tests
end

section
/-! SUPPORT. Proofs for spec file 00_scope.md: the row listing of the matrix (R11), and what a
micro-operation is at a legal sequencer position, from which its fault on `⊥` follows (R12,
R196 (d)). -/

namespace Sys2Proof.Machine

/-! ## The row listing -/

@[simp] theorem cell_fromRows (l : Block) (r c : Fin 4) :
    cell (fromRows l) r c = l[4 * r.val + c.val] := by
  simp [fromRows]

theorem getElem_matRows_row_col (b : Block) (r c : Fin 4) :
    (matRows b)[4 * r.val + c.val] = cell b r c := by
  have hr : (4 * r.val + c.val) / 4 = r.val := by omega
  have hc : (4 * r.val + c.val) % 4 = c.val := by omega
  simp [matRows, hr, hc]

theorem matRows_fromRows (b : Block) : matRows (fromRows b) = b := by
  refine Vector.ext fun i hi => ?_
  have hsplit : 4 * (i / 4) + i % 4 = i := Nat.div_add_mod i 4
  simp [matRows, hsplit]

theorem fromRows_matRows (b : Block) : fromRows (matRows b) = b :=
  block_ext_cells fun r c => by rw [cell_fromRows, getElem_matRows_row_col]

/-! ## Micro-operations at a legal sequencer position -/

section
variable {s : State} (h : s.legalUpc = true)
include h

theorem exec_kld_of_legalUpc :
    exec .kld s = reading .KIN s.KIN fun key => .next (s.writeRK 0 key).advance :=
  atLegalUpc_legal h

/-- The index is in range, so `RCON[k-1]` exists and only the read of `RK[k-1]` can stop. -/
theorem exec_kexp_of_legalUpc {k : BitVec 4} (h1 : 1 ≤ k.toNat) (h10 : k.toNat ≤ 10) :
    exec (.kexp k) s = readingRK s (k.toNat - 1) fun p =>
      .next (s.writeRK k.toNat (keyExpandStep p rconTable[k.toNat - 1])).advance := by
  have hk : k.toNat ≠ 0 := by omega
  have hr : k.toNat - 1 < 10 := by omega
  exact (atLegalUpc_legal h).trans <| (if_neg hk).trans <| readingRcon_value hr _

theorem exec_ark_of_legalUpc (k : BitVec 4) :
    exec (.ark k) s = readingRK s k.toNat fun key =>
      reading .S s.S fun b => .next (s.writeS (addRoundKey b key)).advance :=
  atLegalUpc_legal h

theorem exec_sub_of_legalUpc :
    exec .sub s = reading .S s.S fun b => .next (s.writeS (subBytes b)).advance :=
  atLegalUpc_legal h

theorem exec_shr_of_legalUpc :
    exec .shr s = reading .S s.S fun b => .next (s.writeS (shiftRows b)).advance :=
  atLegalUpc_legal h

theorem exec_mix_of_legalUpc :
    exec .mix s = reading .S s.S fun b => .next (s.writeS (mixColumns b)).advance :=
  atLegalUpc_legal h

theorem exec_fin_of_legalUpc :
    exec .fin s = reading .S s.S fun b =>
      .next (s.writeCT b).raiseDone.discardOperands.discardRK.enterIdle :=
  atLegalUpc_legal h

/-- The micro-operations whose only register read is `S` fault when it holds `⊥` (R196 (d)). -/
theorem exec_fault_of_S_none (hS : s.S = none) {i : Instr}
    (hi : i ∈ [Instr.sub, .shr, .mix, .fin]) : exec i s = .fault (.readOfNoValue .S) := by
  simp only [List.mem_cons, List.not_mem_nil, or_false] at hi
  obtain rfl | rfl | rfl | rfl := hi
  · rw [exec_sub_of_legalUpc h, hS, reading_none]
  · rw [exec_shr_of_legalUpc h, hS, reading_none]
  · rw [exec_mix_of_legalUpc h, hS, reading_none]
  · rw [exec_fin_of_legalUpc h, hS, reading_none]

end

/-- Settles O21: the two maps undo each other, and the index formula of each is the matrix entry. -/
theorem rowListingMapsAreInverse : Obligations.RowListingMapsAreInverse := by
  refine fun b => ⟨matRows_fromRows b, fromRows_matRows b, fun r c => ⟨?_, ?_⟩⟩
  · rw [cell_fromRows, Vector.getElem?_eq_getElem]
  · rw [Vector.getElem?_eq_getElem (by omega), getElem_matRows_row_col]

/-- Settles O36: at a legal position a micro-operation is the reads of its registers in order, and
the first one that holds `⊥` is the fault. -/
theorem readOfNoValueFaults : Obligations.ReadOfNoValueFaults := by
  refine fun s h => ⟨fun hKIN => ?kld, fun k h1 h10 hRK => ?kexp, fun k hRK => ?arkRK,
    fun k key hRK hS => ?arkS, fun hS i hi => exec_fault_of_S_none h hS hi⟩
  case kld => rw [exec_kld_of_legalUpc h, hKIN, reading_none]
  case kexp => rw [exec_kexp_of_legalUpc h h1 h10, readingRK_noValue hRK]
  case arkRK => rw [exec_ark_of_legalUpc h, readingRK_noValue hRK]
  case arkS => rw [exec_ark_of_legalUpc h, readingRK_value hRK, hS, reading_none]

end Sys2Proof.Machine
end

section
/-! SUPPORT. Proofs for spec file 10_state.md. What an instruction that completes has written, what
stands in UPROG at each address, and, from both, the six transitions of a core that meets the
invariant (`Transition`); the invariant, the sequencer's moves, the flags and the round keys then
follow by cases on the transition. -/

namespace Sys2Proof.Machine

/-! ## What an instruction that completes has written -/

/-- The register transfer of FIN (R166). -/
def finish (b : Block) (s : State) : State :=
  (s.writeCT b).raiseDone.discardOperands.discardRK.enterIdle

section
variable (b : Block) (s : State)
@[simp] theorem finish_S : (finish b s).S = none := rfl
@[simp] theorem finish_KIN : (finish b s).KIN = none := rfl
@[simp] theorem finish_RK : (finish b s).RK = noSchedule := rfl
@[simp] theorem finish_CT : (finish b s).CT = some b := rfl
@[simp] theorem finish_phase : (finish b s).phase = .idle := rfl
@[simp] theorem finish_upc : (finish b s).upc = 0 := rfl
@[simp] theorem finish_done : (finish b s).done = true := rfl
@[simp] theorem finish_resetSeen : (finish b s).resetSeen = s.resetSeen := rfl
@[simp] theorem finish_ports : (finish b s).ports = s.ports := rfl
@[simp] theorem finish_pending : (finish b s).pending = s.pending := rfl
end

/-- The micro-operations that write `S`: SUB, SHR, MIX and ARK. -/
def isRoundOp : Instr → Bool
  | .sub | .shr | .mix | .ark _ => true
  | .kld | .kexp _ | .fin | .reset | .start _ _ => false

section
variable {s t : State}

theorem exec_kld_next (h : exec .kld s = .next t) :
    ∃ key, s.KIN = some key ∧ t = (s.writeRK 0 key).advance := by
  obtain ⟨-, h⟩ := atLegalUpc_next h
  obtain ⟨key, hKIN, h⟩ := reading_next h
  exact ⟨key, hKIN, by cases h; rfl⟩

theorem exec_kexp_next {k : BitVec 4} (h : exec (.kexp k) s = .next t) :
    ∃ rc p, romRcon (k.toNat - 1) = some rc ∧ s.RK[k.toNat - 1]? = some (some p) ∧
      t = (s.writeRK k.toNat (keyExpandStep p rc)).advance := by
  obtain ⟨-, h⟩ := atLegalUpc_next h
  split at h
  · cases h
  · obtain ⟨rc, hrc, h⟩ := readingRcon_next h
    obtain ⟨p, hp, h⟩ := readingRK_next h
    exact ⟨rc, p, hrc, hp, by cases h; rfl⟩

theorem exec_ark_next {k : BitVec 4} (h : exec (.ark k) s = .next t) :
    ∃ key b, s.RK[k.toNat]? = some (some key) ∧ s.S = some b ∧
      t = (s.writeS (addRoundKey b key)).advance := by
  obtain ⟨-, h⟩ := atLegalUpc_next h
  obtain ⟨key, hkey, h⟩ := readingRK_next h
  obtain ⟨b, hb, h⟩ := reading_next h
  exact ⟨key, b, hkey, hb, by cases h; rfl⟩

/-- SUB, SHR and MIX are one shape: `S` is replaced by a function `f` of itself. -/
theorem readS_writeS_next {f : Block → Block}
    (h : (atLegalUpc s <| reading .S s.S fun b => .next (s.writeS (f b)).advance) = .next t) :
    ∃ b, s.S = some b ∧ t = (s.writeS (f b)).advance := by
  obtain ⟨-, h⟩ := atLegalUpc_next h
  obtain ⟨b, hb, h⟩ := reading_next h
  exact ⟨b, hb, by cases h; rfl⟩

theorem exec_sub_next (h : exec .sub s = .next t) :
    ∃ b, s.S = some b ∧ t = (s.writeS (subBytes b)).advance := readS_writeS_next h

theorem exec_shr_next (h : exec .shr s = .next t) :
    ∃ b, s.S = some b ∧ t = (s.writeS (shiftRows b)).advance := readS_writeS_next h

theorem exec_mix_next (h : exec .mix s = .next t) :
    ∃ b, s.S = some b ∧ t = (s.writeS (mixColumns b)).advance := readS_writeS_next h

theorem exec_fin_next (h : exec .fin s = .next t) : ∃ b, s.S = some b ∧ t = finish b s := by
  obtain ⟨-, h⟩ := atLegalUpc_next h
  obtain ⟨b, hb, h⟩ := reading_next h
  exact ⟨b, hb, by cases h; rfl⟩

theorem exec_reset_eq (s : State) : exec .reset s = .next s.resetRegisters := rfl

theorem exec_start_of_idle {key pt : Port} (hp : s.phase = .idle) (hu : s.upc = 0) :
    exec (.start key pt) s = .next (accept key pt s) := by
  refine (atLegalUpc_legal ((legalUpc_idle hp).2 hu)).trans ?_
  rw [hp]

theorem exec_start_next {key pt : Port} (h : exec (.start key pt) s = .next t) :
    (s.phase = .idle ∧ t = accept key pt s) ∨ (s.phase = .run ∧ t = s) := by
  obtain ⟨-, h⟩ := atLegalUpc_next h
  split at h
  · exact .inl ⟨‹_›, by cases h; rfl⟩
  · exact .inr ⟨‹_›, by cases h; rfl⟩

/-- A round operation has written `S` and moved the position, whatever it wrote. -/
theorem exec_roundOp_next {i : Instr} (hi : isRoundOp i = true) (h : exec i s = .next t) :
    ∃ b, t = (s.writeS b).advance := by
  cases i with
  | sub => obtain ⟨b, -, rfl⟩ := exec_sub_next h; exact ⟨_, rfl⟩
  | shr => obtain ⟨b, -, rfl⟩ := exec_shr_next h; exact ⟨_, rfl⟩
  | mix => obtain ⟨b, -, rfl⟩ := exec_mix_next h; exact ⟨_, rfl⟩
  | ark k => obtain ⟨key, b, -, -, rfl⟩ := exec_ark_next h; exact ⟨_, rfl⟩
  | kld | kexp _ | fin | reset | start _ _ => cases hi

end

theorem writeRK_getElem?_ne (s : State) {j k : Nat} (key : Key) (h : j ≠ k) :
    (s.writeRK k key).RK[j]? = s.RK[j]? := by
  rw [writeRK_RK, Vector.getElem?_setIfInBounds_ne h.symm]

/-- Settles O39: each of the four has written `S` and moved the position. -/
theorem stateMicroOperationsFrame : Obligations.StateMicroOperationsFrame := by
  intro i s t hi h
  have hop : isRoundOp i = true := by
    obtain hi | ⟨k, rfl⟩ := hi
    · simp only [List.mem_cons, List.not_mem_nil, or_false] at hi
      obtain rfl | rfl | rfl := hi <;> rfl
    · rfl
  obtain ⟨b, rfl⟩ := exec_roundOp_next hop h
  exact ⟨rfl, rfl, rfl, rfl, rfl, rfl, rfl, rfl, rfl⟩

/-- Settles O40: both have written one entry of `RK`, KLD the entry 0, and moved the position. -/
theorem keyMicroOperationsFrame : Obligations.KeyMicroOperationsFrame := by
  intro k s t h
  obtain ⟨key, rfl⟩ : ∃ key, t = (s.writeRK k.toNat key).advance := by
    obtain ⟨rfl, h⟩ | h := h
    · obtain ⟨key, -, rfl⟩ := exec_kld_next h
      exact ⟨key, rfl⟩
    · obtain ⟨rc, p, -, -, rfl⟩ := exec_kexp_next h
      exact ⟨_, rfl⟩
  exact ⟨rfl, rfl, rfl, rfl, rfl, rfl, rfl, rfl, rfl, fun j hj => writeRK_getElem?_ne s key hj⟩

/-- Settles O41: none of the register transfers touches the inputs. -/
theorem inputsAreTheHosts : Obligations.InputsAreTheHosts := by
  intro i s t h
  cases i with
  | kld =>
    obtain ⟨key, -, rfl⟩ := exec_kld_next h
    exact ⟨rfl, rfl, fun _ => rfl⟩
  | kexp k =>
    obtain ⟨rc, p, -, -, rfl⟩ := exec_kexp_next h
    exact ⟨rfl, rfl, fun _ => rfl⟩
  | ark _ | sub | shr | mix =>
    obtain ⟨b, rfl⟩ := exec_roundOp_next rfl h
    exact ⟨rfl, rfl, fun _ => rfl⟩
  | fin =>
    obtain ⟨b, -, rfl⟩ := exec_fin_next h
    exact ⟨rfl, rfl, fun _ => rfl⟩
  | reset =>
    cases h
    exact ⟨rfl, rfl, fun hne => absurd rfl hne⟩
  | start key pt =>
    obtain ⟨-, rfl⟩ | ⟨-, rfl⟩ := exec_start_next h
    · exact ⟨rfl, rfl, fun _ => rfl⟩
    · exact ⟨rfl, rfl, fun _ => rfl⟩

/-! ## The host operation on the ports, and the micro-operation at each address of UPROG -/

/-- The micro-operation that `UPROG` holds at address `a` (R52, R164). -/
def uopAt (a : Nat) : Option Instr := (romUprog a).bind fun u => (decodeUop u).toOption

theorem fetchUop_of_uopAt {s : State} {i : Instr} (h : uopAt s.upc.toNat = some i) :
    fetchUop s = .ok i := by
  obtain ⟨u, hu, hi⟩ := Option.bind_eq_some_iff.1 h
  have hd : decodeUop u = .ok i := by
    cases hd : decodeUop u with
    | ok j => rw [hd] at hi; cases hi; rfl
    | error e => rw [hd] at hi; cases hi
  simp [fetchUop, hu, hd]

theorem step_of_uopAt {s : State} {i : Instr} (hrst : s.ports.rst = false)
    (hr : s.resetSeen = true) (hp : s.phase = .run) (h : uopAt s.upc.toNat = some i) :
    step s = afterExec (exec i s) :=
  step_of_select (by rw [select_run hrst hr hp, fetchUop_of_uopAt h]; rfl)

theorem decodeHost_of_start {h : HostWord} (hrst : h.rst = false) (hs : h.start = true) :
    decodeHost h = .ok (.start h.key_in h.pt_in) := by
  simp [decodeHost, hrst, hs]

theorem decodeHost_of_quiet {h : HostWord} (hrst : h.rst = false) (hs : h.start = false) :
    decodeHost h = .error .noOperation := by
  simp [decodeHost, hrst, hs]

theorem uopAt_zero : uopAt 0 = some .kld := rfl

theorem uopAt_expand : ∀ a < 11, 1 ≤ a → uopAt a = some (.kexp (BitVec.ofNat 4 a)) := by decide

theorem uopAt_round : ∀ a < 51, 11 ≤ a → (uopAt a).any isRoundOp = true := by decide

theorem uopAt_last : uopAt 51 = some .fin := rfl

/-! ## The round keys written before an address -/

section
variable (key : Key) {a k : Nat}

theorem expand_zero : (expand key)[0] = key := by
  simp [expand, roundKey]

theorem expand_succ (h : k < 10) :
    (expand key)[k + 1] = keyExpandStep (expand key)[k] rconTable[k] := by
  simp [expand, roundKey]

theorem getElem_scheduleBefore (hk : k < 11) :
    (scheduleBefore key a)[k] = if k < a then some (expand key)[k] else none := by
  simp [scheduleBefore]

theorem scheduleBefore_zero : scheduleBefore key 0 = noSchedule := by
  refine Vector.ext fun k hk => ?_
  simp [getElem_scheduleBefore key hk, noSchedule]

/-- Writing round key `a` at address `a` keeps the schedule complete up to the position. -/
theorem scheduleBefore_succ (h : a < 11) :
    (scheduleBefore key a).setIfInBounds a (some (expand key)[a]) = scheduleBefore key (a + 1) := by
  refine Vector.ext fun k hk => ?_
  rw [Vector.getElem_setIfInBounds, getElem_scheduleBefore key hk, getElem_scheduleBefore key hk]
  by_cases hka : a = k
  · subst hka; simp
  · have : k < a + 1 ↔ k < a := by omega
    simp [hka, this]

/-- From address 11 on nothing is left to write. -/
theorem scheduleBefore_of_le (h : 11 ≤ a) : scheduleBefore key (a + 1) = scheduleBefore key a := by
  refine Vector.ext fun k hk => ?_
  rw [getElem_scheduleBefore key hk, getElem_scheduleBefore key hk, if_pos (by omega),
    if_pos (by omega)]

theorem getElem?_scheduleBefore_eq_some {x : Key} :
    (scheduleBefore key a)[k]? = some (some x) ↔ k < a ∧ (expand key)[k]? = some x := by
  by_cases hk : k < 11
  · simp [Vector.getElem?_eq_getElem hk, getElem_scheduleBefore key hk]
  · simp [Vector.getElem?_eq_none (Nat.le_of_not_lt hk)]

/-- Where the schedule stands, what KEXP derives from the values it reads is the next round key. -/
theorem keyExpandStep_of_reads {p : Key} {rc : Word} (hk : k < 10) (hrc : romRcon k = some rc)
    (hp : (scheduleBefore key a)[k]? = some (some p)) :
    keyExpandStep p rc = (expand key)[k + 1] := by
  obtain ⟨-, hp⟩ := (getElem?_scheduleBefore_eq_some key).1 hp
  rw [Vector.getElem?_eq_getElem (by omega)] at hp
  rw [romRcon, Vector.getElem?_eq_getElem hk] at hrc
  rw [expand_succ key hk, Option.some.inj hp, Option.some.inj hrc]

end

/-! ## The invariant, phase by phase -/

section
variable {s : State}

theorem inv_idle (hp : s.phase = .idle) :
    s.Inv ↔ s.resetSeen = true ∧ s.upc = 0 ∧ s.S = none ∧ s.KIN = none ∧ s.RK = noSchedule ∧
      s.done = s.CT.isSome := by
  simp [State.Inv, hp]

theorem inv_run (hp : s.phase = .run) :
    s.Inv ↔ s.resetSeen = true ∧ s.upc.toNat ≤ 51 ∧ s.done = false ∧ s.CT = none ∧ s.S ≠ none ∧
      ∃ key, s.KIN = some key ∧ s.RK = scheduleBefore key s.upc.toNat := by
  simp [State.Inv, hp]

@[simp] theorem inv_tick : s.tick.Inv ↔ s.Inv := by
  simp [State.Inv]

theorem busy_iff : s.busy = true ↔ s.phase = .run := by
  simp [State.busy]

theorem upc_add_one_toNat (h : s.upc.toNat ≤ 51) : (s.upc + 1).toNat = s.upc.toNat + 1 := by
  bv_omega

/-- A running core has shown no result yet (R26). -/
theorem State.Inv.done_of_run (h : s.Inv) (hp : s.phase = .run) : s.done = false := by
  obtain ⟨-, -, hd, -⟩ := (inv_run hp).1 h
  exact hd

theorem State.Inv.done_eq_isSome_CT (h : s.Inv) : s.done = s.CT.isSome := by
  cases hp : s.phase with
  | idle =>
    obtain ⟨-, -, -, -, -, hd⟩ := (inv_idle hp).1 h
    exact hd
  | run =>
    obtain ⟨-, -, hd, hCT, -⟩ := (inv_run hp).1 h
    simp [hd, hCT]

theorem State.Inv.ctOut_ne_none_iff (h : s.Inv) : s.ctOut ≠ none ↔ s.done = true := by
  cases hCT : s.CT <;> simp [State.ctOut, h.done_eq_isSome_CT, hCT]

end

/-- Settles O49: the idle half of the invariant, field by field. -/
theorem resetStateMeetsTheInvariant : Obligations.ResetStateMeetsTheInvariant :=
  (inv_idle rfl).2 ⟨rfl, rfl, rfl, rfl, rfl, rfl⟩

/-! ## The transitions of a core that has been reset -/

/-- What a step does to a core that meets the invariant (R25, R167, R176): the six kinds of step,
each with the condition under which it is taken and the state it leaves. -/
inductive Transition (s : State) : State → Prop
  /-- RESET. -/
  | reset (hrst : s.ports.rst = true) : Transition s s.resetRegisters.tick
  /-- An accepted START. -/
  | start (hrst : s.ports.rst = false) (hp : s.phase = .idle) (hs : s.ports.start = true) :
    Transition s (accept s.ports.key_in s.ports.pt_in s).tick
  /-- Hold. -/
  | hold (hrst : s.ports.rst = false) (hp : s.phase = .idle) (hs : s.ports.start = false) :
    Transition s s.tick
  /-- KLD at address 0, KEXP `a` at the addresses `a` in 1..10: the round key of the address. -/
  | keyOp (hrst : s.ports.rst = false) (hp : s.phase = .run) (key : Key)
    (hkey : s.KIN = some key) (hu : s.upc.toNat < 11) :
    Transition s (s.writeRK s.upc.toNat (expand key)[s.upc.toNat]).advance.tick
  /-- A round operation at the addresses 11..50. -/
  | roundOp (hrst : s.ports.rst = false) (hp : s.phase = .run) (b : Block)
    (hl : 11 ≤ s.upc.toNat) (hu : s.upc.toNat < 51) : Transition s (s.writeS b).advance.tick
  /-- FIN at address 51. -/
  | fin (hrst : s.ports.rst = false) (hp : s.phase = .run) (b : Block) (hS : s.S = some b)
    (hu : s.upc.toNat = 51) : Transition s (finish b s).tick

section
variable {s t : State}

theorem transition_of_step_idle (hi : s.Inv) (hp : s.phase = .idle) (hrst : s.ports.rst = false)
    (h : step s = .next t) : Transition s t := by
  obtain ⟨hr, hu, -⟩ := (inv_idle hp).1 hi
  have hsel := select_idle hrst hr hp hu
  cases hs : s.ports.start with
  | true =>
    rw [decodeHost_of_start hrst hs] at hsel
    rw [step_of_select hsel, exec_start_of_idle hp hu] at h
    cases h
    exact .start hrst hp hs
  | false =>
    rw [decodeHost_of_quiet hrst hs] at hsel
    rw [step_of_hold hsel] at h
    cases h
    exact .hold hrst hp hs

/-- At the addresses 0 to 10 the invariant names what the key micro-operation reads, and so the
round key it writes. -/
theorem transition_of_step_keyOp (hi : s.Inv) (hp : s.phase = .run) (hrst : s.ports.rst = false)
    (hu : s.upc.toNat < 11) (h : step s = .next t) : Transition s t := by
  obtain ⟨hr, -, -, -, -, key, hKIN, hRK⟩ := (inv_run hp).1 hi
  suffices t = (s.writeRK s.upc.toNat (expand key)[s.upc.toNat]).advance.tick from
    this ▸ .keyOp hrst hp key hKIN hu
  by_cases h0 : s.upc.toNat = 0
  · rw [step_of_uopAt hrst hr hp (h0 ▸ uopAt_zero)] at h
    obtain ⟨u, hx, rfl⟩ := afterExec_eq_next h
    obtain ⟨key', hkey', rfl⟩ := exec_kld_next hx
    obtain rfl : key = key' := Option.some.inj (hKIN.symm.trans hkey')
    simp only [h0, expand_zero]
  · rw [step_of_uopAt hrst hr hp (uopAt_expand _ hu (by omega))] at h
    obtain ⟨u, hx, rfl⟩ := afterExec_eq_next h
    obtain ⟨rc, p, hrc, hpk, rfl⟩ := exec_kexp_next hx
    obtain ⟨a, ha⟩ : ∃ a, s.upc.toNat = a + 1 := ⟨s.upc.toNat - 1, by omega⟩
    have hk : (BitVec.ofNat 4 s.upc.toNat).toNat = s.upc.toNat := by simp; omega
    rw [hk, ha, Nat.add_sub_cancel] at hrc hpk
    rw [hk, keyExpandStep_of_reads key (by omega) hrc (hRK ▸ hpk)]
    simp only [ha]

theorem transition_of_step_roundOp (hi : s.Inv) (hp : s.phase = .run) (hrst : s.ports.rst = false)
    (hl : 11 ≤ s.upc.toNat) (hu : s.upc.toNat < 51) (h : step s = .next t) : Transition s t := by
  obtain ⟨hr, -⟩ := (inv_run hp).1 hi
  obtain ⟨i, hat, hop⟩ := (Option.any_eq_true _ _).1 (uopAt_round _ hu hl)
  rw [step_of_uopAt hrst hr hp hat] at h
  obtain ⟨u, hx, rfl⟩ := afterExec_eq_next h
  obtain ⟨b, rfl⟩ := exec_roundOp_next hop hx
  exact .roundOp hrst hp b hl hu

theorem transition_of_step_fin (hi : s.Inv) (hp : s.phase = .run) (hrst : s.ports.rst = false)
    (hu : s.upc.toNat = 51) (h : step s = .next t) : Transition s t := by
  obtain ⟨hr, -⟩ := (inv_run hp).1 hi
  rw [step_of_uopAt hrst hr hp (hu ▸ uopAt_last)] at h
  obtain ⟨u, hx, rfl⟩ := afterExec_eq_next h
  obtain ⟨b, hb, rfl⟩ := exec_fin_next hx
  exact .fin hrst hp b hb hu

/-- A step of a core that meets the invariant is one of the six transitions. -/
theorem transition_of_step (hi : s.Inv) (h : step s = .next t) : Transition s t := by
  cases hrst : s.ports.rst with
  | true =>
    rw [step_of_select (select_rst hrst), exec_reset_eq] at h
    cases h
    exact .reset hrst
  | false =>
    cases hp : s.phase with
    | idle => exact transition_of_step_idle hi hp hrst h
    | run =>
      obtain ⟨-, hu, -⟩ := (inv_run hp).1 hi
      obtain hlt | ⟨hl, hlt⟩ | heq :
          s.upc.toNat < 11 ∨ (11 ≤ s.upc.toNat ∧ s.upc.toNat < 51) ∨ s.upc.toNat = 51 := by omega
      · exact transition_of_step_keyOp hi hp hrst hlt h
      · exact transition_of_step_roundOp hi hp hrst hl hlt h
      · exact transition_of_step_fin hi hp hrst heq h

theorem Transition.inv (hi : s.Inv) (h : Transition s t) : t.Inv := by
  cases h with
  | reset => exact inv_tick.2 ((inv_idle rfl).2 ⟨rfl, rfl, rfl, rfl, rfl, rfl⟩)
  | start hrst hp hs =>
    obtain ⟨hr, -⟩ := (inv_idle hp).1 hi
    refine inv_tick.2 ((inv_run rfl).2 ⟨hr, Nat.zero_le _, rfl, rfl, nofun, _, rfl, ?_⟩)
    exact (scheduleBefore_zero _).symm
  | hold => exact inv_tick.2 hi
  | keyOp hrst hp key hkey hu =>
    obtain ⟨hr, h51, hd, hCT, hS, key', hkey', hRK⟩ := (inv_run hp).1 hi
    obtain rfl : key = key' := Option.some.inj (hkey.symm.trans hkey')
    have hp' : (s.writeRK s.upc.toNat (expand key)[s.upc.toNat]).advance.phase = .run := hp
    refine inv_tick.2 ((inv_run hp').2 ⟨hr, ?_, hd, hCT, hS, key, hkey, ?_⟩)
    · rw [advance_upc, writeRK_upc, upc_add_one_toNat h51]
      omega
    · rw [advance_RK, writeRK_RK, hRK, scheduleBefore_succ key hu, advance_upc, writeRK_upc,
        upc_add_one_toNat h51]
  | roundOp hrst hp b hl hu =>
    obtain ⟨hr, h51, hd, hCT, -, key, hkey, hRK⟩ := (inv_run hp).1 hi
    have hp' : (s.writeS b).advance.phase = .run := hp
    refine inv_tick.2 ((inv_run hp').2 ⟨hr, ?_, hd, hCT, nofun, key, hkey, ?_⟩)
    · rw [advance_upc, writeS_upc, upc_add_one_toNat h51]
      omega
    · rw [advance_RK, writeS_RK, hRK, advance_upc, writeS_upc, upc_add_one_toNat h51,
        scheduleBefore_of_le key hl]
  | fin hrst hp b hS hu =>
    obtain ⟨hr, -⟩ := (inv_run hp).1 hi
    exact inv_tick.2 ((inv_idle rfl).2 ⟨hr, rfl, rfl, rfl, rfl, rfl⟩)

end

/-- Settles O50: each of the six transitions keeps the invariant. -/
theorem stepKeepsTheInvariant : Obligations.StepKeepsTheInvariant :=
  fun _ _ hi h => (transition_of_step hi h).inv hi

/-- Settles O52: the position after each of the six transitions. -/
theorem sequencerMoves : Obligations.SequencerMoves := by
  intro s t hi h
  cases transition_of_step hi h with
  | reset hrst => simp [hrst]
  | start hrst hp hs => simp [hrst, hp, hs]
  | hold hrst hp hs =>
    obtain ⟨-, hu, -⟩ := (inv_idle hp).1 hi
    simp [hrst, hp, hs, hu]
  | keyOp hrst hp key hkey hu =>
    have hu' := upc_add_one_toNat (s := s) (by omega)
    simp only [tick_phase, tick_upc, advance_phase, advance_upc, writeRK_phase, writeRK_upc]
    exact .inr (.inr (.inr (.inl ⟨hrst, hp, by omega, hp, hu'⟩)))
  | roundOp hrst hp b hl hu =>
    have hu' := upc_add_one_toNat (s := s) (by omega)
    simp only [tick_phase, tick_upc, advance_phase, advance_upc, writeS_phase, writeS_upc]
    exact .inr (.inr (.inr (.inl ⟨hrst, hp, hu, hp, hu'⟩)))
  | fin hrst hp b hS hu => simp [hrst, hp, hu]

/-- The condition under which a step leaves `done` at 1: FIN, or a hold that keeps a result (R26). -/
theorem Transition.done_iff {s t : State} (hi : s.Inv) (h : Transition s t) :
    t.done = true ↔ s.ports.rst = false ∧ ((s.phase = .run ∧ s.upc.toNat = 51) ∨
      (s.phase = .idle ∧ s.ports.start = false ∧ s.done = true)) := by
  cases h with
  | reset hrst => simp [hrst]
  | start hrst hp hs => simp [hp, hs]
  | hold hrst hp hs => simp [hrst, hp, hs]
  | keyOp hrst hp key hkey hu =>
    have h51 : s.upc.toNat ≠ 51 := by omega
    simp [hp, h51, hi.done_of_run hp]
  | roundOp hrst hp b hl hu =>
    have h51 : s.upc.toNat ≠ 51 := by omega
    simp [hp, h51, hi.done_of_run hp]
  | fin hrst hp b hS hu => simp [hrst, hp, hu]

/-- `CT` after a step that leaves `done` at 1: `S` where FIN sets it, kept where a hold keeps it
(R26, R166). -/
theorem Transition.CT_of_done {s t : State} (hi : s.Inv) (h : Transition s t)
    (ht : t.done = true) :
    (s.done = false ∧ t.CT = s.S ∧ t.CT ≠ none) ∨ (s.done = true ∧ t.CT = s.CT) := by
  cases h with
  | reset | start => simp at ht
  | hold => exact .inr ⟨by simpa using ht, tick_CT s⟩
  | keyOp _ hp => simp [hi.done_of_run hp] at ht
  | roundOp _ hp => simp [hi.done_of_run hp] at ht
  | fin _ hp b hS => exact .inl ⟨hi.done_of_run hp, by simp [hS]⟩

/-- Settles O53: the first three clauses are of the invariant, the others of the transition. -/
theorem flagsFollowTheOperation : Obligations.FlagsFollowTheOperation := by
  intro s t hi h
  have htr := transition_of_step hi h
  refine ⟨busy_iff, ?notBoth, hi.ctOut_ne_none_iff, htr.done_iff hi, fun ht hs => ?set,
    fun ht hs => ?kept⟩
  case notBoth =>
    rintro ⟨hb, hd⟩
    exact Bool.false_ne_true ((hi.done_of_run (busy_iff.1 hb)).symm.trans hd)
  case set =>
    obtain ⟨-, hCT⟩ | ⟨hd, -⟩ := htr.CT_of_done hi ht
    · exact hCT
    · exact absurd (hs.symm.trans hd) Bool.false_ne_true
  case kept =>
    obtain ⟨hd, -⟩ | ⟨-, hCT⟩ := htr.CT_of_done hi ht
    · exact absurd (hd.symm.trans hs) Bool.false_ne_true
    · exact hCT

/-- Settles O54: an entry that holds a value lies below the position, and the one entry a running
step can write is the position's own. -/
theorem roundKeysAreWrittenOnce : Obligations.RoundKeysAreWrittenOnce := by
  intro s t k x hi h hs ht hk
  cases transition_of_step hi h with
  | reset | fin => simp at ht
  | start _ hp | hold _ hp => simp [hs] at hp
  | keyOp hrst hp key hkey hu =>
    obtain ⟨-, -, -, -, -, key', -, hRK⟩ := (inv_run hp).1 hi
    have hlt : k < s.upc.toNat := by
      rw [hRK, getElem?_scheduleBefore_eq_some] at hk
      exact hk.left
    rw [tick_RK, advance_RK, writeRK_getElem?_ne s _ hlt.ne, hk]
  | roundOp => rw [tick_RK, advance_RK, writeS_RK, hk]

end Sys2Proof.Machine
end

section
/-! SUPPORT. Proofs for spec file 20_memory.md: the contents of the three tables (R50 to R52) and
the packing of the 128-bit ports (R54 to R56). -/

namespace Sys2Proof.Machine

/-! ## UPROG and RCON -/

theorem romUprog_expand :
    ∀ a < 11, 1 ≤ a → romUprog a = some (BitVec.ofNat 8 (0x20 + a)) := by decide

/-- The nine middle rounds, four words each (R52). -/
theorem romUprog_middleRound : ∀ a < 48, 12 ≤ a → romUprog a = some (
    if (a - 12) % 4 = 0 then 0x40
    else if (a - 12) % 4 = 1 then 0x50
    else if (a - 12) % 4 = 2 then 0x60
    else BitVec.ofNat 8 (0x30 + ((a - 12) / 4 + 1))) := by decide

theorem romUprog_eq_none {a : Nat} (h : 52 ≤ a) : romUprog a = none := Vector.getElem?_eq_none h

theorem romRcon_eq_power :
    ∀ a < 10, romRcon a = some (wordOf (xtimeIter 0x01 a) 0 0 0) := by decide

theorem romRcon_eq_none {a : Nat} (h : 10 ≤ a) : romRcon a = none := Vector.getElem?_eq_none h

/-- Settles O9: the ranges of the closed form are read off the table, and it ends at 52. -/
theorem uprogClosedForm : Obligations.UprogClosedForm := by
  refine ⟨rfl, fun a h1 h10 => ?expand, rfl, fun a h12 h47 => ?middle, rfl, rfl, rfl, rfl,
    fun a h => romUprog_eq_none h⟩
  case expand => exact romUprog_expand a (by omega) h1
  case middle => exact romUprog_middleRound a (by omega) h12

/-- Settles O10: the ten entries are read off the table, and it ends at 10. -/
theorem rconHoldsThePowersOfTwo : Obligations.RconHoldsThePowersOfTwo :=
  ⟨romRcon_eq_power, fun _ h => romRcon_eq_none h⟩

/-! ## SBOX

`affinePreimage` undoes the affine map of R50, so it names the byte `x` that the cross-check of the
entry `sbox a` speaks of. What is left to check of the table is that this byte is the field inverse
of `a`. -/

/-- The preimage of `y` under the affine map of R50: its bit `i` is
`y[i+2] ^ y[i+5] ^ y[i+7] ^ d[i]` with `d = 0x05`, the indices modulo 8. -/
def affinePreimage (y : Byte) : Byte :=
  y.rotateLeft 6 ^^^ y.rotateLeft 3 ^^^ y.rotateLeft 1 ^^^ 0x05

/-- Bit `i` of the affine map of `affinePreimage y`, spelled out with `bj` for `y[i+j]`: every bit
but `b0` is there twice. -/
theorem xor_of_pairs (b0 b1 b2 b3 b4 b5 b6 b7 : Bool) :
    (b2 != (b5 != (b7 != (b6 != (b1 != (b3 != (b7 != (b2 != (b4 != (b0 != (b3 != (b5 != (b1 !=
      (b4 != b6)))))))))))))) = b0 := by
  revert b0 b1 b2 b3 b4 b5 b6 b7; decide

theorem affineBit_affinePreimage (y : Byte) {i : Nat} (hi : i < 8) :
    affineBit (affinePreimage y) i = y.getLsbD i := by
  interval_cases i <;> simp [affineBit, affinePreimage, xor_of_pairs]

theorem affinePreimage_sbox_zero : affinePreimage (sbox 0) = 0 := by decide

/-- The check of the table's 255 other entries: SBOX is data, so this is a computation over it. -/
theorem fieldMul_affinePreimage_sbox :
    ∀ a : Byte, a ≠ 0 → fieldMul a (affinePreimage (sbox a)) = 0x01 := by decide

/-- Settles O12: the inverse of `a` is the preimage of its table entry under the affine map. -/
theorem sboxIsTheAffineMapOfTheInverse : Obligations.SboxIsTheAffineMapOfTheInverse := by
  refine fun a => ⟨affinePreimage (sbox a), ?zero, fieldMul_affinePreimage_sbox a,
    fun i hi => (affineBit_affinePreimage (sbox a) hi).symm⟩
  case zero =>
    rintro rfl
    exact affinePreimage_sbox_zero

/-! ## Port packing

A port value is four words and a word is four bytes. That a Key and its port value determine each
other is the fact about the 128 bits; a block follows, because the port value of a block is that of
the Key whose words are its columns (R54). -/

theorem extractLsb'_append_words (a b c d : Word) :
    (a ++ b ++ c ++ d).extractLsb' 96 32 = a ∧ (a ++ b ++ c ++ d).extractLsb' 64 32 = b ∧
    (a ++ b ++ c ++ d).extractLsb' 32 32 = c ∧ (a ++ b ++ c ++ d).extractLsb' 0 32 = d := by
  simp only [BitVec.extractLsb'_append_eq_of_le, BitVec.extractLsb'_append_eq_right,
    BitVec.extractLsb'_eq_self, Nat.reduceLeDiff, Nat.reduceSub, le_refl, and_self]

theorem keyOfPort_eq_words (p : Port) : keyOfPort p =
    #v[p.extractLsb' 96 32, p.extractLsb' 64 32, p.extractLsb' 32 32, p.extractLsb' 0 32] := rfl

@[simp] theorem keyOfPort_packKey (k : Key) : keyOfPort (packKey k) = k := by
  obtain ⟨h0, h1, h2, h3⟩ := extractLsb'_append_words k[0] k[1] k[2] k[3]
  refine Vector.ext fun w hw => ?_
  interval_cases w
  exacts [h0, h1, h2, h3]

@[simp] theorem packKey_keyOfPort (p : Port) : packKey (keyOfPort p) = p := by
  simp only [packKey, keyOfPort_eq_words]; ext i hi; simp; grind

/-- Key byte `j` is `key_in[127-8j : 120-8j]` (R55, R56). -/
theorem keyByte_keyOfPort (p : Port) (j : Fin 16) :
    keyByte (keyOfPort p) j = p.extractLsb' (120 - 8 * j.val) 8 := by
  have hpos : 96 - 32 * (j.val / 4) + (24 - 8 * (j.val % 4)) = 120 - 8 * j.val := by omega
  ext i hi
  have hin : 24 - 8 * (j.val % 4) + i < 32 := by omega
  simp [keyByte, byteOf, keyOfPort, colOf, rowOf, hin, ← hpos, Nat.add_assoc]

theorem getElem_blockOfPort (p : Port) (i : Fin 16) :
    (blockOfPort p)[i] = p.extractLsb' (120 - 8 * i.val) 8 := by
  simp [blockOfPort]

/-- The columns of a block as the words of a Key (R54). -/
def columnKey (b : Block) : Key := Vector.ofFn (columnWord b)

theorem packBlock_eq_packKey (b : Block) : packBlock b = packKey (columnKey b) := rfl

@[simp] theorem keyByte_columnKey (b : Block) (i : Fin 16) : keyByte (columnKey b) i = b[i] := by
  simp [keyByte, columnKey, cell]

theorem extractLsb'_packBlock (b : Block) (i : Fin 16) :
    (packBlock b).extractLsb' (120 - 8 * i.val) 8 = b[i] := by
  rw [← keyByte_keyOfPort, packBlock_eq_packKey, keyOfPort_packKey, keyByte_columnKey]

theorem cell_blockOfPort (p : Port) (r c : Fin 4) :
    cell (blockOfPort p) r c = byteOf (keyOfPort p)[c] r := by
  rw [cell, getElem_blockOfPort, ← keyByte_keyOfPort]
  simp only [keyByte, colOf_matrixIndex, rowOf_matrixIndex]

@[simp] theorem columnKey_blockOfPort (p : Port) : columnKey (blockOfPort p) = keyOfPort p := by
  refine Vector.ext fun c hc => ?_
  simp [columnKey, columnWord, cell_blockOfPort]

@[simp] theorem packBlock_blockOfPort (p : Port) : packBlock (blockOfPort p) = p := by
  rw [packBlock_eq_packKey, columnKey_blockOfPort, packKey_keyOfPort]

@[simp] theorem blockOfPort_packBlock (b : Block) : blockOfPort (packBlock b) = b :=
  Vector.ext fun i hi => (getElem_blockOfPort _ ⟨i, hi⟩).trans (extractLsb'_packBlock b ⟨i, hi⟩)

/-- Settles O20: the bytes and words where R56 puts them, and each packing undone by its
unpacking. -/
theorem portPackingIsExact : Obligations.PortPackingIsExact :=
  ⟨fun p i => ⟨getElem_blockOfPort p i, keyByte_keyOfPort p i⟩, keyOfPort_eq_words,
    extractLsb'_packBlock, fun p => ⟨packBlock_blockOfPort p, packKey_keyOfPort p⟩,
    fun b k => ⟨blockOfPort_packBlock b, keyOfPort_packKey k⟩⟩

end Sys2Proof.Machine
end

section
/-! SUPPORT. Proofs for spec file 30_encoding.md. A format-U word is its two fields (R83), and it
decodes to an instruction exactly when that instruction is well formed and encoded as the word
(`decodeUop_eq_ok_iff`); the round trips and the rows of R85's table follow from that. -/

namespace Sys2Proof.Machine

/-! ## The two fields of a format-U word, and the illegal values of `k` -/

@[simp] theorem uopOpc_uopWord (opc k : BitVec 4) : uopOpc (uopWord opc k) = opc :=
  BitVec.extractLsb'_append_eq_left

@[simp] theorem uopIndex_uopWord (opc k : BitVec 4) : uopIndex (uopWord opc k) = k :=
  BitVec.extractLsb'_append_eq_right

theorem toNat_uopOpc (u : UopWord) : (uopOpc u).toNat = u.toNat / 16 := by
  have hlt : u.toNat / 16 < 16 := by omega
  simpa [uopOpc, Nat.shiftRight_eq_div_pow] using hlt

theorem toNat_uopIndex (u : UopWord) : (uopIndex u).toNat = u.toNat % 16 := by
  simp [uopIndex]

/-- A word is the word of its fields, and of no others (R83). -/
theorem uopWord_eq_iff {opc k : BitVec 4} {u : UopWord} :
    uopWord opc k = u ↔ uopOpc u = opc ∧ uopIndex u = k := by
  constructor
  · rintro rfl
    exact ⟨uopOpc_uopWord opc k, uopIndex_uopWord opc k⟩
  · rintro ⟨rfl, rfl⟩
    refine BitVec.eq_of_toNat_eq ?_
    rw [uopWord, BitVec.toNat_append, ← Nat.shiftLeft_add_eq_or_of_lt (uopIndex u).isLt,
      toNat_uopOpc, toNat_uopIndex, Nat.shiftLeft_eq]
    omega

theorem uopIndex_ne_zero_iff {u : UopWord} : (uopIndex u == 0) = false ↔ u.toNat % 16 ≠ 0 := by
  rw [beq_eq_false_iff_ne, ← toNat_uopIndex, ne_eq, ← BitVec.toNat_inj]
  rfl

theorem kexp_illFormed_iff {k : BitVec 4} :
    (Instr.kexp k).wellFormed = false ↔ k.toNat = 0 ∨ 11 ≤ k.toNat := by
  simp only [Instr.wellFormed, Bool.and_eq_false_iff, decide_eq_false_iff_not]
  omega

theorem ark_illFormed_iff {k : BitVec 4} : (Instr.ark k).wellFormed = false ↔ 11 ≤ k.toNat := by
  simp only [Instr.wellFormed, decide_eq_false_iff_not]
  omega

/-! ## Round trips -/

theorem legalUop_eq_ok_iff {u : UopWord} {legal : Bool} {i j : Instr} :
    legalUop u legal i = .ok j ↔ legal = true ∧ i = j := by
  cases legal <;> simp [legalUop]

theorem legalUop_eq_error_iff {u : UopWord} {legal : Bool} {i : Instr} :
    legalUop u legal i = .error (.reservedUop u) ↔ legal = false := by
  cases legal <;> simp [legalUop]

theorem decode_encode_kexp (k : BitVec 4) : decode (encode (.kexp k)) =
    legalUop (uopWord 0x2 k) (Instr.kexp k).wellFormed (.kexp k) := by
  simp [decode, encode, decodeUop]

theorem decode_encode_ark (k : BitVec 4) : decode (encode (.ark k)) =
    legalUop (uopWord 0x3 k) (Instr.ark k).wellFormed (.ark k) := by
  simp [decode, encode, decodeUop]

/-- Settles O1: KEXP and ARK come back with the index their word holds where it is legal; the other
micro-operations are one word each, and START comes back with the values on the ports. -/
theorem decodeOfEncodeIsTheInstruction : Obligations.DecodeOfEncodeIsTheInstruction := by
  intro i hi
  cases i with
  | kexp k => exact (decode_encode_kexp k).trans (legalUop_eq_ok_iff.2 ⟨hi, rfl⟩)
  | ark k => exact (decode_encode_ark k).trans (legalUop_eq_ok_iff.2 ⟨hi, rfl⟩)
  | kld | sub | shr | mix | fin => rfl
  | reset | start _ _ => rfl

/-- Settles O2: only KEXP and ARK can be ill-formed, and the decoder keeps just the legal ones. -/
theorem illFormedIndexEncodesToAReservedWord :
    Obligations.IllFormedIndexEncodesToAReservedWord := by
  intro i hi
  cases i with
  | kexp k => exact ⟨_, rfl, (decode_encode_kexp k).trans (legalUop_eq_error_iff.2 hi)⟩
  | ark k => exact ⟨_, rfl, (decode_encode_ark k).trans (legalUop_eq_error_iff.2 hi)⟩
  | kld | sub | shr | mix | fin | reset | start _ _ => cases hi

theorem uopWord_of_fields {u : UopWord} {opc k : BitVec 4} (ho : (uopOpc u).toNat = opc.toNat)
    (hk : uopIndex u = k) : uopWord opc k = u :=
  uopWord_eq_iff.2 ⟨BitVec.eq_of_toNat_eq ho, hk⟩

/-- Settles O3: in each arm of the decoder the two fields are those that the encoder writes. -/
theorem decodedUopEncodesBack : Obligations.DecodedUopEncodesBack := by
  intro u i h
  unfold decodeUop at h
  split at h
  case h_1 ho | h_4 ho | h_5 ho | h_6 ho | h_7 ho =>
    obtain ⟨hk, rfl⟩ := legalUop_eq_ok_iff.1 h
    exact ⟨rfl, congrArg MachineWord.uop (uopWord_of_fields ho (eq_of_beq hk))⟩
  case h_2 ho | h_3 ho =>
    obtain ⟨hlegal, rfl⟩ := legalUop_eq_ok_iff.1 h
    exact ⟨hlegal, congrArg MachineWord.uop (uopWord_of_fields ho rfl)⟩
  case h_8 => cases h

theorem decode_of_encode_eq {i : Instr} {w : MachineWord} (hi : i.wellFormed = true)
    (hw : encode i = w) : decode w = .ok i :=
  hw ▸ decodeOfEncodeIsTheInstruction i hi

theorem decodeUop_eq_ok_iff {u : UopWord} {i : Instr} :
    decodeUop u = .ok i ↔ i.wellFormed = true ∧ encode i = .uop u :=
  ⟨decodedUopEncodesBack u i, fun ⟨hi, hu⟩ => decode_of_encode_eq hi hu⟩

/-- Settles O7: each of the nine is the encoding of its instruction, so it decodes to it. -/
theorem writtenOutWordsDecode : Obligations.WrittenOutWordsDecode :=
  ⟨decode_of_encode_eq rfl rfl, decode_of_encode_eq rfl rfl, decode_of_encode_eq rfl rfl,
    decode_of_encode_eq rfl rfl, decode_of_encode_eq rfl rfl, decode_of_encode_eq rfl rfl,
    decode_of_encode_eq rfl rfl, decode_of_encode_eq rfl rfl, decode_of_encode_eq rfl rfl⟩

/-! ## Match, mask and the legal range of `k` -/

theorem and_0xFF (u : UopWord) : u &&& 0xFF = u := BitVec.and_allOnes

theorem and_0xF0 : ∀ u : UopWord, u &&& 0xF0 = uopWord (uopOpc u) 0 := by decide

theorem uop_eq_uop_iff {u v : UopWord} : MachineWord.uop u = .uop v ↔ u = v :=
  iff_of_eq (MachineWord.uop.injEq u v)

/-- A row without an operand: the mask keeps the whole word, so the row is one word. -/
theorem decodeUop_eq_ok_iff_of_encode {i : Instr} {w : UopWord} (hi : i.wellFormed = true)
    (hw : encode i = .uop w) (u : UopWord) : decodeUop u = .ok i ↔ u &&& 0xFF = w := by
  rw [decodeUop_eq_ok_iff, and_iff_right hi, hw, and_0xFF, uop_eq_uop_iff, eq_comm]

/-- A row with an operand: the mask keeps `opc`, and `k` is the rest of the word. -/
theorem uopWord_eq_iff_match_mask {opc k : BitVec 4} {u : UopWord} :
    uopWord opc k = u ↔ u &&& 0xF0 = uopWord opc 0 ∧ k.toNat = u.toNat % 16 := by
  have hopc : uopWord (uopOpc u) 0 = uopWord opc 0 ↔ uopOpc u = opc := by
    simp [uopWord_eq_iff, eq_comm]
  rw [uopWord_eq_iff, and_0xF0, hopc, ← toNat_uopIndex, BitVec.toNat_inj, eq_comm (a := k)]

theorem decodeUop_eq_kexp_iff {u : UopWord} {k : BitVec 4} : decodeUop u = .ok (.kexp k) ↔
    u &&& 0xF0 = 0x20 ∧ k.toNat = u.toNat % 16 ∧ 1 ≤ k.toNat ∧ k.toNat ≤ 10 := by
  have hrow : encode (.kexp k) = .uop u ↔ u &&& 0xF0 = 0x20 ∧ k.toNat = u.toNat % 16 :=
    uop_eq_uop_iff.trans uopWord_eq_iff_match_mask
  rw [decodeUop_eq_ok_iff, hrow, and_comm, and_assoc]
  simp [Instr.wellFormed]

theorem decodeUop_eq_ark_iff {u : UopWord} {k : BitVec 4} : decodeUop u = .ok (.ark k) ↔
    u &&& 0xF0 = 0x30 ∧ k.toNat = u.toNat % 16 ∧ k.toNat ≤ 10 := by
  have hrow : encode (.ark k) = .uop u ↔ u &&& 0xF0 = 0x30 ∧ k.toNat = u.toNat % 16 :=
    uop_eq_uop_iff.trans uopWord_eq_iff_match_mask
  rw [decodeUop_eq_ok_iff, hrow, and_comm, and_assoc]
  simp [Instr.wellFormed]

theorem legalWords_eq :
    ((List.range 256).filter fun w => (decodeUop (BitVec.ofNat 8 w)).toOption.isSome) =
      [0x10, 0x21, 0x22, 0x23, 0x24, 0x25, 0x26, 0x27, 0x28, 0x29, 0x2a, 0x30, 0x31, 0x32, 0x33,
       0x34, 0x35, 0x36, 0x37, 0x38, 0x39, 0x3a, 0x40, 0x50, 0x60, 0x70] := by
  decide

/-- Settles O4: the five rows without an operand, the two with one, and the list computed. -/
theorem formatUByMatchAndMask : Obligations.FormatUByMatchAndMask := by
  refine ⟨fun u => ⟨?kld, fun _ => decodeUop_eq_kexp_iff, fun _ => decodeUop_eq_ark_iff, ?sub,
    ?shr, ?mix, ?fin⟩, legalWords_eq⟩
  all_goals exact decodeUop_eq_ok_iff_of_encode rfl rfl u

/-! ## Pseudo-operations and reserved words -/

theorem map_encode_encryptOps : encryptOps.map encode = uprogTable.toList.map .uop := rfl

theorem wellFormed_of_mem_encryptOps : ∀ i ∈ encryptOps, i.wellFormed = true := by decide

/-- Settles O8: the lengths are those of the lists as defined, and so is the micro-program. -/
theorem encryptPseudoOperationIsUprog : Obligations.EncryptPseudoOperationIsUprog :=
  ⟨rfl, rfl, fun _ => rfl, rfl, rfl, map_encode_encryptOps⟩

/-- Every word of UPROG is the encoding of an instruction of ENCRYPT, so it has a meaning. -/
theorem exists_decodeUop_of_mem_uprog {u : UopWord} (hu : u ∈ uprogTable.toList) :
    ∃ i, decodeUop u = .ok i := by
  have hmem : MachineWord.uop u ∈ encryptOps.map encode :=
    map_encode_encryptOps ▸ List.mem_map_of_mem hu
  obtain ⟨i, hi, henc⟩ := List.mem_map.1 hmem
  exact ⟨i, decode_of_encode_eq (wellFormed_of_mem_encryptOps i hi) henc⟩

/-- R88's list, by the arms of the decoder: in each the high digit of the word is known, and what
is left is arithmetic on the low one. -/
theorem decodeUop_eq_error_iff (u : UopWord) :
    decodeUop u = .error (.reservedUop u) ↔
      (u.toNat / 16 = 0 ∨ 8 ≤ u.toNat / 16) ∨
      (u.toNat / 16 ∈ [0x1, 0x4, 0x5, 0x6, 0x7] ∧ u.toNat % 16 ≠ 0) ∨
      (u.toNat = 0x20 ∨ (0x2b ≤ u.toNat ∧ u.toNat ≤ 0x2f)) ∨
      (0x3b ≤ u.toNat ∧ u.toNat ≤ 0x3f) := by
  simp only [List.mem_cons, List.not_mem_nil, or_false]
  unfold decodeUop
  rw [toNat_uopOpc]
  split
  case h_1 | h_4 | h_5 | h_6 | h_7 =>
    rw [legalUop_eq_error_iff, uopIndex_ne_zero_iff]
    omega
  case h_2 =>
    rw [legalUop_eq_error_iff, kexp_illFormed_iff, toNat_uopIndex]
    omega
  case h_3 =>
    rw [legalUop_eq_error_iff, ark_illFormed_iff, toNat_uopIndex]
    omega
  case h_8 =>
    have hopc : u.toNat / 16 = 0 ∨ 8 ≤ u.toNat / 16 := by
      simp only [imp_false] at *
      omega
    exact iff_of_true rfl (.inl hopc)

/-- Settles O5: the arms of the decoder, the count of the words that are not among the 26 legal
ones, and that each word of UPROG decodes. -/
theorem reservedWordsAreRefused : Obligations.ReservedWordsAreRefused := by
  refine ⟨decodeUop_eq_error_iff, ?count, fun u hu => ?uprog⟩
  case count =>
    have h := List.length_eq_length_filter_add (l := List.range 256)
      fun w => (decodeUop (BitVec.ofNat 8 w)).toOption.isSome
    simp only [legalWords_eq, List.length_range, List.length_cons, List.length_nil] at h
    omega
  case uprog =>
    obtain ⟨i, hi⟩ := exists_decodeUop_of_mem_uprog hu
    simp [hi]

/-! ## Format H -/

theorem decodeHost_of_rst {h : HostWord} (hrst : h.rst = true) : decodeHost h = .ok .reset :=
  if_pos hrst

/-- Settles O6: the three values of the selector. -/
theorem hostSelectorDecides : Obligations.HostSelectorDecides :=
  fun _ _ _ => ⟨decodeHost_of_rst rfl, decodeHost_of_start rfl rfl, decodeHost_of_quiet rfl rfl⟩

theorem exec_start_of_run {s : State} {key pt : Port} (hp : s.phase = .run)
    (hu : s.upc.toNat < 52) : exec (.start key pt) s = .next s := by
  refine (atLegalUpc_legal ((legalUpc_run hp).2 hu)).trans ?_
  rw [hp]

/-- Settles O34: the position is legal, and a START that finds the core running writes nothing. -/
theorem startIsIgnoredWhileRunning : Obligations.StartIsIgnoredWhileRunning :=
  fun _ _ _ hp hu => exec_start_of_run hp (Nat.lt_succ_of_le hu)

/-! ## An index that names nothing, at a legal sequencer position -/

section
variable {s : State} (h : s.legalUpc = true)
include h

/-- `KEXP 0` has no previous round key and `KEXP k` with `k` in 11..15 no round constant. -/
theorem exec_kexp_badIndex {k : BitVec 4} (hk : (Instr.kexp k).wellFormed = false) :
    exec (.kexp k) s = .refused .badIndex := by
  refine (atLegalUpc_legal h).trans ?_
  obtain h0 | h11 := kexp_illFormed_iff.1 hk
  · rw [if_pos h0]
  · rw [if_neg (by omega), readingRcon_badIndex (by omega)]

theorem exec_ark_badIndex {k : BitVec 4} (hk : (Instr.ark k).wellFormed = false) :
    exec (.ark k) s = .refused .badIndex := by
  rw [exec_ark_of_legalUpc h, readingRK_badIndex (ark_illFormed_iff.1 hk)]

end

/-- Settles O37: only KEXP and ARK can be ill-formed, and each looks its index up first. -/
theorem indexOutOfRangeIsRefused : Obligations.IndexOutOfRangeIsRefused := by
  intro s i h hi
  cases i with
  | kexp k => exact exec_kexp_badIndex h hi
  | ark k => exact exec_ark_badIndex h hi
  | kld | sub | shr | mix | fin | reset | start _ _ => cases hi

end Sys2Proof.Machine
end

section
/-! SUPPORT. Proofs for spec file 41_substitution.md: the S-box reads the entries of its table in
order (R50, R110), every byte occurs in the table, so the S-box is a bijection (R111), and SUB is
the S-box on each byte of `S` (R113). -/

namespace Sys2Proof.Machine

/-! ## The entries of SBOX in order -/

/-- Of rows of one length `n`, laid one after another, entry `i` stands in row `i / n`, column
`i % n`. -/
theorem getElem?_flatten_of_row_length {α : Type} {n : Nat} (hn : 0 < n) {rows : List (List α)}
    (hlen : ∀ row ∈ rows, row.length = n) (i : Nat) :
    rows.flatten[i]? = rows[i / n]?.bind (·[i % n]?) := by
  induction rows generalizing i with
  | nil => rfl
  | cons row rows ih =>
    obtain ⟨hrow, hrows⟩ := List.forall_mem_cons.1 hlen
    rw [List.flatten_cons]
    obtain hi | hi := Nat.lt_or_ge i n
    · rw [List.getElem?_append_left (hrow ▸ hi), Nat.div_eq_of_lt hi, Nat.mod_eq_of_lt hi]
      rfl
    · rw [List.getElem?_append_right (hrow ▸ hi), hrow, ih hrows, Nat.div_eq_sub_div hn hi,
        Nat.mod_eq_sub_mod hi]
      rfl

theorem length_of_mem_sboxRows : ∀ row ∈ sboxRows, row.length = 16 := by decide

theorem length_sboxRows_flatten : sboxRows.flatten.length = 256 :=
  List.length_flatten.trans (by decide)

/-- Neither default of `romSbox` is taken. -/
theorem getElem?_sboxRows_flatten (b : Byte) : sboxRows.flatten[b.toNat]? = some (sbox b) := by
  have hr : b.toNat / 16 < sboxRows.length := Nat.div_lt_of_lt_mul b.isLt
  have hc : b.toNat % 16 < sboxRows[b.toNat / 16].length :=
    (Nat.mod_lt _ (by decide)).trans_eq (length_of_mem_sboxRows _ (List.getElem_mem hr)).symm
  rw [getElem?_flatten_of_row_length (by decide) length_of_mem_sboxRows]
  simp [sbox, romSbox, hr, hc]

/-! ## Every byte occurs in SBOX

The bytes of a row are collected as the bits of a number, and the numbers of all rows together have
all 256 bits. -/

/-- The bits set in any of the numbers. -/
def orAll (ms : List Nat) : Nat := ms.foldr (· ||| ·) 0

theorem testBit_orAll {ms : List Nat} {i : Nat} :
    (orAll ms).testBit i = true ↔ ∃ m ∈ ms, m.testBit i = true := by
  induction ms with
  | nil => simp [orAll]
  | cons m ms ih =>
    have hcons : orAll (m :: ms) = m ||| orAll ms := rfl
    simp [hcons, ih]

/-- The number whose bit `y` says that the byte `y` is in the row. -/
def byteMask (row : List Byte) : Nat := orAll (row.map fun y => 2 ^ y.toNat)

theorem testBit_byteMask {row : List Byte} {y : Byte} :
    (byteMask row).testBit y.toNat = true ↔ y ∈ row := by
  simp [byteMask, testBit_orAll, Nat.testBit_two_pow, BitVec.toNat_inj]

theorem orAll_byteMask_sboxRows : orAll (sboxRows.map byteMask) = 2 ^ 256 - 1 := by decide

theorem mem_sboxRows_flatten (y : Byte) : y ∈ sboxRows.flatten := by
  have hbit : (orAll (sboxRows.map byteMask)).testBit y.toNat = true := by
    rw [orAll_byteMask_sboxRows, Nat.testBit_two_pow_sub_one]
    exact decide_eq_true y.isLt
  simpa [testBit_orAll, testBit_byteMask] using hbit

/-! ## The S-box is a bijection -/

theorem sbox_surjective : Function.Surjective sbox := by
  intro y
  obtain ⟨i, hi⟩ := List.mem_iff_getElem?.1 (mem_sboxRows_flatten y)
  obtain ⟨hlt, -⟩ := List.getElem?_eq_some_iff.1 hi
  rw [length_sboxRows_flatten] at hlt
  have hentry := getElem?_sboxRows_flatten (BitVec.ofNatLT i hlt)
  exact ⟨_, Option.some.inj (hentry.symm.trans hi)⟩

theorem sbox_bijective : Function.Bijective sbox :=
  have : Finite Byte := .of_injective _ BitVec.toFin_injective
  Finite.surjective_iff_bijective.1 sbox_surjective

theorem sbox_ne_self_and_ne_complement : ∀ b, sbox b ≠ b ∧ sbox b ≠ b ^^^ 0xff := by decide

/-- Settles O11: every byte occurs in the table, so the S-box is onto and, on a finite set, one to
one; that no entry is its index or the complement of it is read off the table. -/
theorem sboxIsABijectionWithoutFixedPoints : Obligations.SboxIsABijectionWithoutFixedPoints :=
  ⟨sbox_bijective, sbox_ne_self_and_ne_complement⟩

/-! ## SUB -/

theorem subBytes_eq_map (b : Block) : subBytes b = b.map sbox :=
  Vector.ext fun i hi => by simp [subBytes]

/-- Settles O29: SUB writes the block of the entries, and each is the printed table's. -/
theorem subSubstitutesEveryByte : Obligations.SubSubstitutesEveryByte := by
  refine fun s b h hS => ⟨subBytes b, ?transfer, fun i x hx => ?entry⟩
  case transfer =>
    rw [exec_sub_of_legalUpc h, hS, reading_some]
    rfl
  case entry =>
    rw [subBytes_eq_map, Vector.getElem?_map, hx]
    exact (getElem?_sboxRows_flatten x).symm

end Sys2Proof.Machine
end

section
/-! SUPPORT. Proofs for spec file 42_key_schedule.md: one step of the expansion word by word (R120,
R121), the recurrence of `expand` (R122), the register transfers of KLD and KEXP (R123, R124), and
the schedule after the eleven key micro-operations of UPROG (R125). -/

namespace Sys2Proof.Machine

/-! ## One expansion step and the recurrence -/

theorem subWord_rotWord (w : Word) : subWord (rotWord w) =
    wordOf (sbox (byteOf w 1)) (sbox (byteOf w 2)) (sbox (byteOf w 3)) (sbox (byteOf w 0)) := by
  simp only [subWord, rotWord_eq_wordOf, byteOf_wordOf_zero, byteOf_wordOf_one, byteOf_wordOf_two,
    byteOf_wordOf_three]

/-- With `t` the first word of the new key, each later word is the one before it added to the word
of the previous key in its place. -/
theorem keyExpandStep_eq_words {p : Key} {rc t : Word}
    (ht : t = wordOf (sbox (byteOf p[3] 1)) (sbox (byteOf p[3] 2)) (sbox (byteOf p[3] 3))
      (sbox (byteOf p[3] 0)) ^^^ p[0] ^^^ rc) :
    keyExpandStep p rc = #v[t, t ^^^ p[1], t ^^^ p[1] ^^^ p[2], t ^^^ p[1] ^^^ p[2] ^^^ p[3]] := by
  rw [← subWord_rotWord] at ht
  rw [ht]
  rfl

/-- Settles O22: the first word is the rotated and substituted last word of the previous key, added
to the first one and the round constant. -/
theorem keyExpandStepUnrolled : Obligations.KeyExpandStepUnrolled :=
  fun _ _ => keyExpandStep_eq_words rfl

/-- Settles O23: the equations of `expand` at 0 and at a successor. -/
theorem expandFollowsTheRecurrence : Obligations.ExpandFollowsTheRecurrence := by
  refine fun key => ⟨Vector.length_toList, ?zero, fun k p rc h1 h10 hp hrc => ?succ⟩
  case zero => rw [Vector.getElem?_eq_getElem (by omega), expand_zero]
  case succ =>
    obtain ⟨a, rfl⟩ := Nat.exists_eq_add_of_le' h1
    rw [Nat.add_sub_cancel] at hp hrc
    obtain ⟨_, rfl⟩ := Vector.getElem?_eq_some_iff.1 hp
    obtain ⟨_, rfl⟩ := Vector.getElem?_eq_some_iff.1 hrc
    rw [Vector.getElem?_eq_getElem (by omega), expand_succ key (by omega)]

/-! ## KLD and KEXP -/

theorem writeRK_getElem?_self (s : State) {k : Nat} (key : Key) (h : k < 11) :
    (s.writeRK k key).RK[k]? = some (some key) := by
  rw [writeRK_RK, Vector.getElem?_setIfInBounds_self_of_lt h]

/-- The entry of the table that KEXP reads is a power of two in the top byte (R51). -/
theorem rconTable_eq_power {a : Nat} (h : a < 10) :
    rconTable[a] = wordOf (xtimeIter 0x01 a) 0 0 0 :=
  Option.some.inj ((Vector.getElem?_eq_getElem h).symm.trans (romRcon_eq_power a h))

section
variable {s : State} (h : s.legalUpc = true)
include h

theorem exec_kld_of_value {key : Key} (hKIN : s.KIN = some key) :
    exec .kld s = .next (s.writeRK 0 key).advance := by
  rw [exec_kld_of_legalUpc h, hKIN, reading_some]

theorem exec_kexp_of_value {k : BitVec 4} {p : Key} (h1 : 1 ≤ k.toNat) (h10 : k.toNat ≤ 10)
    (hp : s.RK[k.toNat - 1]? = some (some p)) : exec (.kexp k) s =
      .next (s.writeRK k.toNat (keyExpandStep p rconTable[k.toNat - 1])).advance := by
  rw [exec_kexp_of_legalUpc h h1 h10, readingRK_value hp]

end

/-- Settles O26: KLD writes the value of `KIN` to entry 0 and moves the position. -/
theorem kldCopiesTheKeyIntoRoundKeyZero : Obligations.KldCopiesTheKeyIntoRoundKeyZero :=
  fun s key h hKIN => ⟨(s.writeRK 0 key).RK, exec_kld_of_value h hKIN,
    writeRK_getElem?_self s key (by omega), fun _ hj => writeRK_getElem?_ne s key hj⟩

/-- Settles O27: KEXP writes the expansion step of the entry before, with a round constant that is
a power of two, and moves the position. -/
theorem kexpDerivesRoundKey : Obligations.KexpDerivesRoundKey := by
  intro s k p h h1 h10 hp
  refine ⟨_, exec_kexp_of_value h h1 h10 hp, fun t ht => ?entry,
    fun j hj => writeRK_getElem?_ne s _ hj⟩
  case entry =>
    rw [← rconTable_eq_power (by omega)] at ht
    rw [← keyExpandStep_eq_words ht]
    exact writeRK_getElem?_self s _ (by omega)

/-! ## The eleven key micro-operations -/

/-- What the ports will hold is a matter of the ports and of the host's further input alone. -/
theorem portsAt_congr {s t : State} (hports : t.ports = s.ports) (hpending : t.pending = s.pending)
    (j : Nat) : portsAt t j = portsAt s j := by
  induction j generalizing s t with
  | zero => exact hports
  | succ j ih =>
    rw [portsAt_succ, portsAt_succ]
    exact ih (by rw [tick_ports, tick_ports, hports, hpending])
      (by rw [tick_pending, tick_pending, hpending])

theorem portsAt_writeRK_advance_tick (s : State) (k : Nat) (key : Key) (j : Nat) :
    portsAt (s.writeRK k key).advance.tick j = portsAt s (j + 1) :=
  portsAt_congr (s := s) (t := (s.writeRK k key).advance) rfl rfl (j + 1)

section
variable {s : State} {key : Key}

/-- At the addresses 0 to 10 a running core writes the round key of its position: KLD reads `KIN`,
and KEXP finds the entry before written (R28). -/
theorem step_keyOp {a : Nat} (hi : s.Inv) (hp : s.phase = .run) (hrst : s.ports.rst = false)
    (hKIN : s.KIN = some key) (ha : s.upc.toNat = a) (h : a < 11) :
    step s = .next (s.writeRK a (expand key)[a]).advance.tick := by
  obtain ⟨hr, -, -, -, -, key', hkey', hRK⟩ := (inv_run hp).1 hi
  obtain rfl : key = key' := Option.some.inj (hKIN.symm.trans hkey')
  have hl : s.legalUpc = true := (legalUpc_run hp).2 (by omega)
  cases a with
  | zero =>
    rw [step_of_uopAt hrst hr hp (ha ▸ uopAt_zero), exec_kld_of_value hl hKIN, afterExec_next,
      expand_zero]
  | succ a =>
    have hk : (BitVec.ofNat 4 (a + 1)).toNat = a + 1 := Nat.mod_eq_of_lt (by omega)
    have hread : s.RK[a]? = some (some (expand key)[a]) := by
      rw [hRK, ha, getElem?_scheduleBefore_eq_some]
      exact ⟨a.lt_succ_self, Vector.getElem?_eq_getElem _⟩
    have hat : uopAt s.upc.toNat = some (.kexp (BitVec.ofNat 4 (a + 1))) :=
      ha.symm ▸ uopAt_expand (a + 1) h (by omega)
    rw [step_of_uopAt hrst hr hp hat, exec_kexp_of_value hl (by omega) (by omega) (by rwa [hk]),
      afterExec_next, expand_succ key (by omega)]
    simp only [hk, Nat.add_sub_cancel]

/-- `n` steps that stay within the addresses 0 to 10 keep the operation, its key and `S`. -/
theorem runs_keyOps (n : Nat) (hi : s.Inv) (hp : s.phase = .run) (hKIN : s.KIN = some key)
    (hu : s.upc.toNat + n ≤ 11) (hrst : ∀ j, j < n → (portsAt s j).rst = false) :
    ∃ t, runs n s = .next t ∧ t.Inv ∧ t.phase = .run ∧ t.upc.toNat = s.upc.toNat + n ∧
      t.S = s.S ∧ t.KIN = some key := by
  induction n generalizing s with
  | zero => exact ⟨s, rfl, hi, hp, rfl, rfl, hKIN⟩
  | succ n ih =>
    have hstep := step_keyOp hi hp (hrst 0 n.succ_pos) hKIN rfl (by omega)
    generalize (expand key)[s.upc.toNat] = rk at hstep
    have hupc : (s.writeRK s.upc.toNat rk).advance.tick.upc.toNat = s.upc.toNat + 1 := by
      simpa using upc_add_one_toNat (s := s) (by omega)
    obtain ⟨t, hrun, hti, htp, htu, htS, htKIN⟩ :=
      ih (stepKeepsTheInvariant _ _ hi hstep) (by simpa using hp) (by simpa using hKIN) (by omega)
        fun j hj => (portsAt_writeRK_advance_tick s _ rk j).symm ▸ hrst (j + 1) (by omega)
    exact ⟨t, (runs_succ_of_step hstep).trans hrun, hti, htp, by omega, by simpa using htS, htKIN⟩

end

/-- Settles O55: the eleven steps keep the invariant, which at address 11 says that the whole
schedule is written. -/
theorem scheduleIsCompleteAfterElevenSteps : Obligations.ScheduleIsCompleteAfterElevenSteps := by
  intro s key hi hp hu hKIN hrst
  have hu0 : s.upc.toNat = 0 := by rw [hu]; rfl
  obtain ⟨t, hrun, hti, htp, htu, htS, htKIN⟩ := runs_keyOps 11 hi hp hKIN (by omega) hrst
  rw [hu0, Nat.zero_add] at htu
  obtain ⟨-, -, -, -, -, key', hkey', hRK⟩ := (inv_run htp).1 hti
  obtain rfl : key = key' := Option.some.inj (htKIN.symm.trans hkey')
  refine ⟨t, hrun, htp, BitVec.eq_of_toNat_eq htu, htS, htKIN, fun k hk => ?_⟩
  have hk11 : k < 11 := Nat.lt_succ_of_le hk
  rw [hRK, htu, Vector.getElem?_eq_getElem hk11, Vector.getElem?_eq_getElem hk11,
    getElem_scheduleBefore key hk11, if_pos hk11]

end Sys2Proof.Machine
end

section
/-! SUPPORT. Proofs for spec file 43_shift_rows.md: ShiftRows as a permutation of the buffer
indices and its commuting with SubBytes (R135), its period (R136), and the register transfer of
SHR (R135). -/

namespace Sys2Proof.Machine

/-! ## ShiftRows as a permutation of the bytes -/

/-- R135's two forms of the index agree: the column is moved by the row. -/
theorem matrixIndex_row_col_add_row (i : Fin 16) :
    (matrixIndex (rowOf i) (colOf i + rowOf i)).val = (5 * i.val) % 16 := by
  simp only [matrixIndex, rowOf, colOf, Fin.val_add]
  omega

theorem getElem?_shiftRows (b : Block) {i : Nat} (hi : i < 16) :
    (shiftRows b)[i]? = b[(5 * i) % 16]? := by
  have hj : (5 * i) % 16 < 16 := Nat.mod_lt _ (by omega)
  rw [Vector.getElem?_eq_getElem hi, Vector.getElem?_eq_getElem hj]
  simp [shiftRows, blockOfCells, cell, matrixIndex_row_col_add_row]

/-- R135 corner case (a). -/
theorem shiftRows_eq_self_of_constant_rows {b : Block}
    (h : ∀ r c c', cell b r c = cell b r c') : shiftRows b = b :=
  block_ext_cells fun r c => (cell_shiftRows b r c).trans (h r (c + r) c)

theorem cell_replicate (x : Byte) (r c : Fin 4) : cell (Vector.replicate 16 x) r c = x :=
  Vector.getElem_replicate _

/-- Settles O18: ShiftRows moves a byte and SubBytes replaces it, so either order puts the S-box
value of the same byte in each place. -/
theorem shiftRowsCommutesWithSubBytes : Obligations.ShiftRowsCommutesWithSubBytes := fun b =>
  block_ext_cells fun r c => by rw [cell_subBytes, cell_shiftRows, cell_shiftRows, cell_subBytes]

/-! ## The period -/

/-- `n` applications multiply the index by `5 ^ n`, which gives R136's factors 9 and 13 and, for
`n = 4`, the factor 1. -/
theorem getElem?_iterate_shiftRows (n : Nat) (b : Block) {i : Nat} (hi : i < 16) :
    (shiftRows^[n] b)[i]? = b[(5 ^ n * i) % 16]? := by
  induction n generalizing b with
  | zero => rw [Function.iterate_zero_apply, Nat.pow_zero, Nat.one_mul, Nat.mod_eq_of_lt hi]
  | succ n ih =>
    rw [Function.iterate_succ_apply, ih, getElem?_shiftRows b (Nat.mod_lt _ (by omega)),
      Nat.mul_mod_mod, ← Nat.mul_assoc, ← Nat.pow_succ']

theorem iterate_shiftRows_four (b : Block) : shiftRows^[4] b = b := by
  refine Vector.ext fun i hi => ?_
  have hindex : (5 ^ 4 * i) % 16 = i := by omega
  have hentry := getElem?_iterate_shiftRows 4 b hi
  rwa [hindex, Vector.getElem?_eq_getElem hi, Vector.getElem?_eq_getElem hi,
    Option.some.injEq] at hentry

/-- SHR is followed by MIX in a middle round and by the last ARK in the final round (R52). -/
theorem romUprog_after_shr : ∀ a < 52, romUprog a = some 0x50 →
    romUprog (a + 1) = some 0x60 ∨ romUprog (a + 1) = some 0x3a := by decide

theorem romUprog_succ_ne_shr {a : Nat} (h : romUprog a = some 0x50) :
    romUprog (a + 1) ≠ some 0x50 := by
  have ha : a < 52 := by
    by_contra hge
    rw [romUprog_eq_none (Nat.not_lt.1 hge)] at h
    cases h
  obtain hmix | hark := romUprog_after_shr a ha h
  · rw [hmix]; decide
  · rw [hark]; decide

/-- Settles O17: the powers of 5 modulo 16, the block of the 16 indices, which two applications
leave with 9 where one leaves 5, and the words of UPROG that follow SHR. -/
theorem shiftRowsHasPeriodFour : Obligations.ShiftRowsHasPeriodFour := by
  refine ⟨iterate_shiftRows_four, ?notIdempotent, fun x => ?constant, fun b i hi => ⟨?two, ?three⟩,
    fun _ => romUprog_succ_ne_shr⟩
  case notIdempotent =>
    exact ⟨#v[0, 1, 2, 3, 4, 5, 6, 7, 8, 9, 10, 11, 12, 13, 14, 15], by decide⟩
  case constant =>
    exact shiftRows_eq_self_of_constant_rows fun r c c' => by rw [cell_replicate, cell_replicate]
  case two =>
    have hindex : (5 ^ 2 * i) % 16 = (9 * i) % 16 := by omega
    exact hindex ▸ getElem?_iterate_shiftRows 2 b hi
  case three =>
    have hindex : (5 ^ 3 * i) % 16 = (13 * i) % 16 := by omega
    exact hindex ▸ getElem?_iterate_shiftRows 3 b hi

/-! ## SHR -/

theorem exec_shr_of_value {s : State} {b : Block} (h : s.legalUpc = true) (hS : s.S = some b) :
    exec .shr s = .next (s.writeS (shiftRows b)).advance := by
  rw [exec_shr_of_legalUpc h, hS, reading_some]

/-- Settles O30: SHR writes ShiftRows of the block and moves the position; its entries on buffer
indices and on matrix positions are those of ShiftRows. -/
theorem shrRotatesTheRows : Obligations.ShrRotatesTheRows := by
  refine fun s b h hS => ⟨shiftRows b, exec_shr_of_value h hS, fun _ => getElem?_shiftRows b,
    fun r c c' hc => ?_⟩
  obtain rfl : c' = c + r := Fin.ext (hc.trans (Fin.val_add c r).symm)
  exact cell_shiftRows b r c

end Sys2Proof.Machine
end

section
/-! SUPPORT. Proofs for spec file 44_mix_columns.md: `xtime` bit by bit (R140), the multipliers by
1, 2 and 3 as field products (R141), one column as a cyclic convolution (R143, R144), and
MixColumns and the register transfer of MIX (R145). -/

namespace Sys2Proof.Machine

/-! ## Doubling -/

/-- R140's two cases in one: what is added depends on the bit shifted out alone. -/
theorem xtime_eq_shift_xor (b : Byte) :
    xtime b = b <<< 1 ^^^ if b.getLsbD 7 then 0x1b else 0x00 := by
  unfold xtime
  split
  · rfl
  · exact BitVec.xor_zero.symm

theorem xtime_xor (a b : Byte) : xtime (a ^^^ b) = xtime a ^^^ xtime b := by
  have hreduce : (if (a ^^^ b).getLsbD 7 then 0x1b else 0x00 : Byte) =
      (if a.getLsbD 7 then 0x1b else 0x00) ^^^ if b.getLsbD 7 then 0x1b else 0x00 := by
    rw [BitVec.getLsbD_xor]
    cases a.getLsbD 7 <;> cases b.getLsbD 7 <;> rfl
  rw [xtime_eq_shift_xor, xtime_eq_shift_xor, xtime_eq_shift_xor, hreduce,
    BitVec.shiftLeft_xor_distrib]
  ac_rfl

/-- The bit shifted out comes back as bit 0, since 0x1B is odd (R140). -/
theorem getLsbD_zero_xtime (b : Byte) : (xtime b).getLsbD 0 = b.getLsbD 7 := by
  rw [xtime_eq_shift_xor]
  cases b.getLsbD 7 <;> simp

/-- R140: bit 0 of the result tells which case applied, and the shift keeps the other seven bits. -/
theorem xtime_injective : Function.Injective xtime := by
  intro a b h
  have htop : a.getLsbD 7 = b.getLsbD 7 := by
    rw [← getLsbD_zero_xtime, h, getLsbD_zero_xtime]
  have hshift : a <<< 1 = b <<< 1 := by
    rwa [xtime_eq_shift_xor, xtime_eq_shift_xor, htop, BitVec.xor_left_inj] at h
  refine BitVec.eq_of_getElem_eq fun i hi => ?_
  obtain rfl | hlow : i = 7 ∨ i < 7 := by omega
  · exact htop
  · have hbit := congrArg (·.getLsbD (i + 1)) hshift
    simpa [show i + 1 < 8 by omega] using hbit

theorem xtime_bijective : Function.Bijective xtime :=
  have : Finite Byte := .of_injective _ BitVec.toFin_injective
  Finite.injective_iff_bijective.1 xtime_injective

theorem extractLsb'_shiftLeft_zeroExtend (b : Byte) :
    (b.zeroExtend 9 <<< 1).extractLsb' 0 8 = b <<< 1 := by
  refine BitVec.eq_of_getElem_eq fun i hi => ?_
  have hi9 : i < 9 := by omega
  have hpred : i - 1 < 8 := by omega
  simp [hi9, BitVec.getLsbD_eq_getElem hpred]

theorem getLsbD_shiftLeft_zeroExtend (b : Byte) :
    (b.zeroExtend 9 <<< 1).getLsbD 8 = b.getLsbD 7 := by simp

/-- Settles O13: the low 8 bits of the 9-bit shift are the byte shift, and bit 8 is the bit shifted
out, by which the byte is recovered. -/
theorem xtimeByTheNinthBit : Obligations.XtimeByTheNinthBit := by
  refine ⟨fun b => ?_, xtime_bijective⟩
  intro t
  rw [extractLsb'_shiftLeft_zeroExtend, getLsbD_shiftLeft_zeroExtend, xtime_eq_shift_xor]

/-! ## The products by 1, 2 and 3 -/

theorem fieldMul_one (a : Byte) : fieldMul a 0x01 = mul1 a := BitVec.zero_xor

theorem fieldMul_two (a : Byte) : fieldMul a 0x02 = mul2 a := BitVec.zero_xor

theorem fieldMul_three (a : Byte) : fieldMul a 0x03 = mul3 a :=
  calc fieldMul a 0x03
      = 0#8 ^^^ a ^^^ xtime a := rfl
    _ = xtime a ^^^ a := by rw [BitVec.zero_xor, BitVec.xor_comm]

theorem mul1_xor (a b : Byte) : mul1 (a ^^^ b) = mul1 a ^^^ mul1 b := rfl

theorem mul2_xor (a b : Byte) : mul2 (a ^^^ b) = mul2 a ^^^ mul2 b := xtime_xor a b

theorem mul3_xor (a b : Byte) : mul3 (a ^^^ b) = mul3 a ^^^ mul3 b := by
  unfold mul3
  rw [xtime_xor]
  ac_rfl

/-- Settles O14: the product by a constant is the sum of the doublings that its bits select, and
doubling is linear. -/
theorem smallMultipliersAreLinearProducts : Obligations.SmallMultipliersAreLinearProducts :=
  fun a b => ⟨rfl, rfl, rfl, (fieldMul_one a).symm, (fieldMul_two a).symm, (fieldMul_three a).symm,
    mul1_xor a b, mul2_xor a b, mul3_xor a b⟩

/-! ## One column -/

/-- The product by the coefficient of degree `d` is one of the small multipliers. -/
theorem fieldMul_mixCoefficient (a : Byte) (d : Fin 4) :
    fieldMul a (mixCoefficient d) = ![mul2 a, mul1 a, mul1 a, mul3 a] d :=
  match d with
  | 0 => fieldMul_two a
  | 1 => fieldMul_one a
  | 2 => fieldMul_one a
  | 3 => fieldMul_three a

theorem fieldMul_mixCoefficient_xor (a b : Byte) (d : Fin 4) :
    fieldMul (a ^^^ b) (mixCoefficient d) =
      fieldMul a (mixCoefficient d) ^^^ fieldMul b (mixCoefficient d) := by
  simp only [fieldMul_mixCoefficient]
  match d with
  | 0 => exact mul2_xor a b
  | 1 => exact mul1_xor a b
  | 2 => exact mul1_xor a b
  | 3 => exact mul3_xor a b

/-- Settles O15: with the products by the coefficients written as the small multipliers, each row
of `MixColumn` is the convolution as it stands. -/
theorem mixColumnIsThePolynomialProduct : Obligations.MixColumnIsThePolynomialProduct := by
  intro a0 a1 a2 a3 i
  simp only [fieldMul_mixCoefficient]
  fin_cases i <;> rfl

theorem getElem_mixColumn_xor (a0 a1 a2 a3 b0 b1 b2 b3 : Byte) (r : Fin 4) :
    (mixColumn (a0 ^^^ b0) (a1 ^^^ b1) (a2 ^^^ b2) (a3 ^^^ b3))[r] =
      (mixColumn a0 a1 a2 a3)[r] ^^^ (mixColumn b0 b1 b2 b3)[r] := by
  simp only [mixColumnIsThePolynomialProduct _ _ _ _ r, fieldMul_mixCoefficient_xor]
  ac_rfl

/-- R145 corner case (a): `2 ^ 3 ^ 1 ^ 1 = 1` in the field. -/
theorem mul2_xor_mul3_xor_mul1_twice (x : Byte) : mul2 x ^^^ mul3 x ^^^ mul1 x ^^^ mul1 x = x :=
  calc mul2 x ^^^ mul3 x ^^^ mul1 x ^^^ mul1 x
      = (xtime x ^^^ xtime x) ^^^ (x ^^^ x) ^^^ x := by unfold mul1 mul2 mul3; ac_rfl
    _ = x := by rw [BitVec.xor_self, BitVec.xor_self, BitVec.zero_xor, BitVec.zero_xor]

/-- Each row adds up the same four multiples of the byte, in some order. -/
theorem getElem_mixColumn_self (x : Byte) (r : Fin 4) : (mixColumn x x x x)[r] = x := by
  refine Eq.trans ?_ (mul2_xor_mul3_xor_mul1_twice x)
  match r with
  | 0 => rfl
  | 1 => show mul1 x ^^^ mul2 x ^^^ mul3 x ^^^ mul1 x = _; ac_rfl
  | 2 => show mul1 x ^^^ mul1 x ^^^ mul2 x ^^^ mul3 x = _; ac_rfl
  | 3 => show mul3 x ^^^ mul1 x ^^^ mul1 x ^^^ mul2 x = _; ac_rfl

/-! ## The whole state -/

theorem cell_zipWith (f : Byte → Byte → Byte) (a b : Block) (r c : Fin 4) :
    cell (Vector.zipWith f a b) r c = f (cell a r c) (cell b r c) := Vector.getElem_zipWith _

/-- Settles O16: an entry of MixColumns is an entry of one column's `MixColumn`, which is linear and
keeps four equal bytes. -/
theorem mixColumnsIsLinearAndFixesEqualColumns :
    Obligations.MixColumnsIsLinearAndFixesEqualColumns := by
  refine ⟨fun a b => block_ext_cells fun r c => ?linear, fun b c x hcol r => ?fixed⟩
  case linear => simp only [cell_mixColumns, cell_zipWith, getElem_mixColumn_xor]
  case fixed => simp only [cell_mixColumns, hcol, getElem_mixColumn_self]

theorem exec_mix_of_value {s : State} {b : Block} (h : s.legalUpc = true) (hS : s.S = some b) :
    exec .mix s = .next (s.writeS (mixColumns b)).advance := by
  rw [exec_mix_of_legalUpc h, hS, reading_some]

/-- Settles O31: MIX writes MixColumns of the block and moves the position; the entries of a column
are the four rows of `MixColumn`. -/
theorem mixCombinesEachColumn : Obligations.MixCombinesEachColumn :=
  fun _ b h hS => ⟨mixColumns b, exec_mix_of_value h hS, fun c =>
    ⟨cell_mixColumns b 0 c, cell_mixColumns b 1 c, cell_mixColumns b 2 c, cell_mixColumns b 3 c⟩⟩

end Sys2Proof.Machine
end

section
/-! SUPPORT. Proofs for spec file 45_add_round_key.md: AddRoundKey on column words and on port
values, its being its own inverse, and the register transfer of ARK (R155). -/

namespace Sys2Proof.Machine

/-! ## AddRoundKey -/

theorem columnWord_addRoundKey (b : Block) (k : Key) (c : Fin 4) :
    columnWord (addRoundKey b k) c = columnWord b c ^^^ k[c] := by
  simp only [columnWord, cell_addRoundKey, wordOf_xor, wordOf_byteOf]

theorem append_words_xor (a b c d a' b' c' d' : Word) :
    (a ^^^ a') ++ (b ^^^ b') ++ (c ^^^ c') ++ (d ^^^ d') =
      (a ++ b ++ c ++ d) ^^^ (a' ++ b' ++ c' ++ d') := by
  simp only [BitVec.xor_append]

/-- The port value is the column words one after the other, and XOR acts on each part. -/
theorem packBlock_addRoundKey (b : Block) (k : Key) :
    packBlock (addRoundKey b k) = packBlock b ^^^ packKey k := by
  simp only [packBlock, columnWord_addRoundKey]
  exact append_words_xor ..

/-- R155 corner case (b). -/
theorem addRoundKey_addRoundKey (b : Block) (k : Key) : addRoundKey (addRoundKey b k) k = b :=
  block_ext_cells fun r c => by rw [cell_addRoundKey, cell_addRoundKey, xor_cancel_right]

/-- Settles O19: a byte of a column meets the byte of the key word in the same place, so the XOR of
the bytes is that of the words, and the XOR of the words is that of the port values. -/
theorem addRoundKeyIsOneXor : Obligations.AddRoundKeyIsOneXor := fun b k =>
  ⟨columnWord_addRoundKey b k, packBlock_addRoundKey b k, addRoundKey_addRoundKey b k⟩

/-! ## ARK -/

theorem exec_ark_of_value {s : State} {k : BitVec 4} {key : Key} {b : Block}
    (h : s.legalUpc = true) (hRK : s.RK[k.toNat]? = some (some key)) (hS : s.S = some b) :
    exec (.ark k) s = .next (s.writeS (addRoundKey b key)).advance := by
  rw [exec_ark_of_legalUpc h, readingRK_value hRK, hS, reading_some]

/-- Settles O28: ARK writes AddRoundKey of the block and the round key and moves the position; the
entries of the block are those of AddRoundKey. -/
theorem arkAddsTheRoundKey : Obligations.ArkAddsTheRoundKey :=
  fun _ _ key b h _ hRK hS =>
    ⟨addRoundKey b key, exec_ark_of_value h hRK hS, cell_addRoundKey b key⟩

end Sys2Proof.Machine
end

section
/-! SUPPORT. Proofs for spec file 46_cipher_driver.md: the step of each kind and what it needs (R160
to R167, R176), the operation as a simulation of `encrypt` along UPROG (R168, R175, R178), `encrypt`
as a bijection (R169), the inputs that a running step does not read (R163), and the placed words. -/

namespace Sys2Proof.Machine

/-! ## The step of each kind, and the operation it runs -/

section
variable {s : State}

theorem step_reset (hrst : s.ports.rst = true) : step s = .next s.resetRegisters.tick :=
  step_of_select (select_rst hrst)

theorem step_idle_start (hrst : s.ports.rst = false) (hr : s.resetSeen = true)
    (hp : s.phase = .idle) (hu : s.upc = 0) (hs : s.ports.start = true) :
    step s = afterExec (exec (.start s.ports.key_in s.ports.pt_in) s) := by
  refine step_of_select ?_
  rw [select_idle hrst hr hp hu, decodeHost_of_start hrst hs]
  rfl

theorem step_idle_hold (hrst : s.ports.rst = false) (hr : s.resetSeen = true)
    (hp : s.phase = .idle) (hu : s.upc = 0) (hs : s.ports.start = false) :
    step s = .next s.tick := by
  refine step_of_hold ?_
  rw [select_idle hrst hr hp hu, decodeHost_of_quiet hrst hs]
  rfl

theorem uopAt_of_decodeUop {a : Nat} {u : UopWord} {i : Instr} (hu : romUprog a = some u)
    (hi : decodeUop u = .ok i) : uopAt a = some i := by
  rw [uopAt, hu, Option.bind_some, hi]
  rfl

end

/-- Settles O42: the fetched word decodes to the micro-operation that stands at the position. -/
theorem runningStepRunsTheFetchedMicroOperation :
    Obligations.RunningStepRunsTheFetchedMicroOperation :=
  fun _ _ _ hrst hr hp hu hi => step_of_uopAt hrst hr hp (uopAt_of_decodeUop hu hi)

/-- Settles O43: the selection's cases in their order. -/
theorem hostOperationPriority : Obligations.HostOperationPriority :=
  fun _ => ⟨fun hrst => step_of_select (select_rst hrst), fun hrst hr hp hu =>
    ⟨step_idle_start hrst hr hp hu, step_idle_hold hrst hr hp hu⟩⟩

/-! ## The steps of a core that meets the invariant -/

/-- What a round operation makes of `S` with the round keys `rk`; the other instructions leave the
block as it is. -/
def blockAfter (rk : Vector Key 11) (b : Block) : Instr → Block
  | .sub => subBytes b
  | .shr => shiftRows b
  | .mix => mixColumns b
  | .ark k => rk[k.toNat]?.elim b (addRoundKey b)
  | .kld | .kexp _ | .fin | .reset | .start _ _ => b

theorem exec_sub_of_value {s : State} {b : Block} (h : s.legalUpc = true) (hS : s.S = some b) :
    exec .sub s = .next (s.writeS (subBytes b)).advance := by
  rw [exec_sub_of_legalUpc h, hS, reading_some]

theorem exec_fin_of_value {s : State} {b : Block} (h : s.legalUpc = true) (hS : s.S = some b) :
    exec .fin s = .next (finish b s) := by
  rw [exec_fin_of_legalUpc h, hS, reading_some, finish]

/-- With the whole schedule in `RK`, a round operation in its legal range finds every value that it
reads. -/
theorem exec_roundOp_of_value {s : State} {i : Instr} {rk : Vector Key 11} {b : Block}
    (hop : isRoundOp i = true) (hwf : i.wellFormed = true) (h : s.legalUpc = true)
    (hRK : ∀ k (hk : k < 11), s.RK[k]? = some (some rk[k])) (hS : s.S = some b) :
    exec i s = .next (s.writeS (blockAfter rk b i)).advance := by
  cases i with
  | sub => exact exec_sub_of_value h hS
  | shr => exact exec_shr_of_value h hS
  | mix => exact exec_mix_of_value h hS
  | ark k =>
    have hk : k.toNat < 11 := Nat.lt_succ_of_le (of_decide_eq_true hwf)
    rw [exec_ark_of_value h (hRK k.toNat hk) hS, blockAfter, Vector.getElem?_eq_getElem hk]
    rfl
  | kld | kexp _ | fin | reset | start _ _ => cases hop

theorem uopAt_eq_getElem?_encryptOps : ∀ a < 52, uopAt a = encryptOps[a]? := by decide

theorem wellFormed_of_uopAt {a : Nat} {i : Instr} (ha : a < 52) (h : uopAt a = some i) :
    i.wellFormed = true := by
  rw [uopAt_eq_getElem?_encryptOps a ha] at h
  exact wellFormed_of_mem_encryptOps i (List.mem_of_getElem? h)

theorem getElem?_scheduleBefore_of_complete (key : Key) {a k : Nat} (ha : 11 ≤ a) (hk : k < 11) :
    (scheduleBefore key a)[k]? = some (some (expand key)[k]) :=
  (getElem?_scheduleBefore_eq_some key).2 ⟨by omega, Vector.getElem?_eq_getElem hk⟩

section
variable {s : State}

theorem step_start (hi : s.Inv) (hp : s.phase = .idle) (hrst : s.ports.rst = false)
    (hs : s.ports.start = true) :
    step s = .next (accept s.ports.key_in s.ports.pt_in s).tick := by
  obtain ⟨hr, hu, -⟩ := (inv_idle hp).1 hi
  rw [step_idle_start hrst hr hp hu hs, exec_start_of_idle hp hu, afterExec_next]

theorem step_hold (hi : s.Inv) (hp : s.phase = .idle) (hrst : s.ports.rst = false)
    (hs : s.ports.start = false) : step s = .next s.tick := by
  obtain ⟨hr, hu, -⟩ := (inv_idle hp).1 hi
  exact step_idle_hold hrst hr hp hu hs

/-- At the addresses 11 to 50 the invariant names the whole schedule, so the round operation finds
its round key (R176). -/
theorem step_roundOp {key : Key} {b : Block} {i : Instr} (hi : s.Inv) (hp : s.phase = .run)
    (hrst : s.ports.rst = false) (hKIN : s.KIN = some key) (hS : s.S = some b)
    (hl : 11 ≤ s.upc.toNat) (hu : s.upc.toNat < 51) (hat : uopAt s.upc.toNat = some i) :
    step s = .next (s.writeS (blockAfter (expand key) b i)).advance.tick := by
  obtain ⟨hr, -, -, -, -, key', hkey', hRK⟩ := (inv_run hp).1 hi
  obtain rfl : key = key' := Option.some.inj (hKIN.symm.trans hkey')
  have hop : isRoundOp i = true := by simpa [hat] using uopAt_round _ hu hl
  have hwf := wellFormed_of_uopAt (by omega) hat
  rw [step_of_uopAt hrst hr hp hat, exec_roundOp_of_value hop hwf ((legalUpc_run hp).2 (by omega))
    (fun k hk => hRK ▸ getElem?_scheduleBefore_of_complete key hl hk) hS, afterExec_next]

theorem step_fin {b : Block} (hi : s.Inv) (hp : s.phase = .run) (hrst : s.ports.rst = false)
    (hu : s.upc.toNat = 51) (hS : s.S = some b) : step s = .next (finish b s).tick := by
  obtain ⟨hr, -⟩ := (inv_run hp).1 hi
  rw [step_of_uopAt hrst hr hp (hu ▸ uopAt_last),
    exec_fin_of_value ((legalUpc_run hp).2 (by omega)) hS, afterExec_next]

theorem exists_step_of_run (hi : s.Inv) (hp : s.phase = .run) (hrst : s.ports.rst = false) :
    ∃ t, step s = .next t := by
  obtain ⟨-, h51, -, -, hS, key, hKIN, -⟩ := (inv_run hp).1 hi
  obtain ⟨b, hb⟩ := Option.ne_none_iff_exists'.1 hS
  obtain hlt | ⟨hl, hlt⟩ | heq :
      s.upc.toNat < 11 ∨ (11 ≤ s.upc.toNat ∧ s.upc.toNat < 51) ∨ s.upc.toNat = 51 := by omega
  · exact ⟨_, step_keyOp hi hp hrst hKIN rfl hlt⟩
  · obtain ⟨i, hat, -⟩ := (Option.any_eq_true _ _).1 (uopAt_round _ hlt hl)
    exact ⟨_, step_roundOp hi hp hrst hKIN hb hl hlt hat⟩
  · exact ⟨_, step_fin hi hp hrst heq hb⟩

end

/-- Settles O51: each kind of step finds the values that it reads. -/
theorem resetCoreNeverStops : Obligations.ResetCoreNeverStops := by
  intro s hi
  cases hrst : s.ports.rst with
  | true => exact ⟨_, step_reset hrst⟩
  | false =>
    cases hp : s.phase with
    | run => exact exists_step_of_run hi hp hrst
    | idle =>
      cases hs : s.ports.start with
      | true => exact ⟨_, step_start hi hp hrst hs⟩
      | false => exact ⟨_, step_hold hi hp hrst hs⟩

/-! ## Runs -/

/-- No step writes the inputs, so after it the ports show the host's next levels (R27). -/
theorem portsAt_of_step {s t : State} (h : step s = .next t) (j : Nat) :
    portsAt t j = portsAt s (j + 1) := by
  obtain ⟨-, rfl⟩ | ⟨i, u, -, hx, rfl⟩ := step_next h
  · rfl
  · obtain ⟨hports, hpending, -⟩ := inputsAreTheHosts i s u hx
    exact portsAt_congr hports hpending (j + 1)

theorem exists_step_of_runs_succ {n : Nat} {s t : State} (h : runs (n + 1) s = .next t) :
    ∃ u, step s = .next u ∧ runs n u = .next t := by
  simp only [runs, Host.Core.run] at h
  split at h
  · exact ⟨_, ‹_›, h⟩
  · cases h
  · cases h

/-- A run is prolonged by a step at its end. -/
theorem runs_succ_of_last {n : Nat} {s t u : State} (hrun : runs n s = .next t)
    (hstep : step t = .next u) : runs (n + 1) s = .next u := by
  induction n generalizing s with
  | zero =>
    cases hrun
    exact runs_succ_of_step hstep
  | succ n ih =>
    obtain ⟨v, hv, hrun⟩ := exists_step_of_runs_succ hrun
    exact (runs_succ_of_step hv).trans (ih hrun)

/-! ## Encrypt as the micro-program -/

/-- `S` before the micro-operation at `UPROG` address `a`, in the operation on `pt` and `key`. -/
def blockBefore (pt : Block) (key : Key) (a : Nat) : Block :=
  (encryptOps.take a).foldl (blockAfter (expand key)) pt

theorem blockBefore_succ {pt : Block} {key : Key} {a : Nat} {i : Instr} (ha : a < 52)
    (h : uopAt a = some i) :
    blockBefore pt key (a + 1) = blockAfter (expand key) (blockBefore pt key a) i := by
  rw [uopAt_eq_getElem?_encryptOps a ha] at h
  simp [blockBefore, List.take_add_one, h]

/-- The key micro-operations leave the block alone. -/
theorem blockBefore_succ_of_keyOp (pt : Block) (key : Key) {a : Nat} (ha : a < 11) :
    blockBefore pt key (a + 1) = blockBefore pt key a := by
  by_cases h0 : a = 0
  · subst h0; rfl
  · exact blockBefore_succ (by omega) (uopAt_expand a ha (by omega))

section
variable (rk : Vector Key 11) (b : Block)

theorem foldl_blockAfter_expandOps :
    expandOps.foldl (blockAfter rk) b = b := rfl

theorem foldl_blockAfter_initialOps :
    initialOps.foldl (blockAfter rk) b = addRoundKey b rk[0] := rfl

theorem foldl_blockAfter_roundOps {r : BitVec 4} (hr : r.toNat < 11) :
    (roundOps r).foldl (blockAfter rk) b = middleRound b rk[r.toNat] := by
  simp [roundOps, blockAfter, middleRound, hr]

theorem foldl_blockAfter_finalOps :
    finalOps.foldl (blockAfter rk) b = finalRound b rk[10] := rfl

end

theorem encrypt_eq_foldl_encryptOps (pt : Block) (key : Key) :
    encrypt pt key = encryptOps.foldl (blockAfter (expand key)) pt := by
  simp (disch := decide) only [encryptOps, List.foldl_append, foldl_blockAfter_expandOps,
    foldl_blockAfter_initialOps, foldl_blockAfter_roundOps, foldl_blockAfter_finalOps]
  rfl

theorem blockBefore_fin (pt : Block) (key : Key) : blockBefore pt key 51 = encrypt pt key :=
  calc blockBefore pt key 51
      = blockBefore pt key 52 := (blockBefore_succ (by omega) uopAt_last).symm
    _ = encrypt pt key := (encrypt_eq_foldl_encryptOps pt key).symm

/-! ## One operation -/

/-- The core runs the operation on `pt` and `key` and stands at `UPROG` address `a`. -/
structure Operating (pt : Block) (key : Key) (a : Nat) (s : State) : Prop where
  inv : s.Inv
  phase : s.phase = .run
  upc : s.upc.toNat = a
  KIN : s.KIN = some key
  S : s.S = some (blockBefore pt key a)

section
variable {s : State} {pt : Block} {key : Key} {a : Nat}

theorem operating_of_accept (hi : s.Inv) (hp : s.phase = .idle) (hrst : s.ports.rst = false)
    (hs : s.ports.start = true) :
    Operating (blockOfPort s.ports.pt_in) (keyOfPort s.ports.key_in) 0
      (accept s.ports.key_in s.ports.pt_in s).tick where
  inv := stepKeepsTheInvariant _ _ hi (step_start hi hp hrst hs)
  phase := tick_phase _
  upc := congrArg BitVec.toNat (tick_upc _)
  KIN := tick_KIN _
  S := tick_S _

/-- Before FIN a step moves the operation on by one address: a key micro-operation leaves `S`, a
round operation does to it what it does to the block. -/
theorem Operating.exists_step (h : Operating pt key a s) (ha : a < 51)
    (hrst : s.ports.rst = false) : ∃ t, step s = .next t ∧ Operating pt key (a + 1) t := by
  obtain ⟨hi, hp, rfl, hKIN, hS⟩ := h
  have hupc := upc_add_one_toNat (s := s) (by omega)
  obtain hlt | hl := Nat.lt_or_ge s.upc.toNat 11
  · have hstep := step_keyOp hi hp hrst hKIN rfl hlt
    refine ⟨_, hstep, stepKeepsTheInvariant _ _ hi hstep, ?_, ?_, ?_, ?_⟩
    · rw [tick_phase, advance_phase, writeRK_phase, hp]
    · rw [tick_upc, advance_upc, writeRK_upc, hupc]
    · rw [tick_KIN, advance_KIN, writeRK_KIN, hKIN]
    · rw [tick_S, advance_S, writeRK_S, hS, blockBefore_succ_of_keyOp pt key hlt]
  · obtain ⟨i, hat, -⟩ := (Option.any_eq_true _ _).1 (uopAt_round _ ha hl)
    have hstep := step_roundOp hi hp hrst hKIN hS hl ha hat
    refine ⟨_, hstep, stepKeepsTheInvariant _ _ hi hstep, ?_, ?_, ?_, ?_⟩
    · rw [tick_phase, advance_phase, writeS_phase, hp]
    · rw [tick_upc, advance_upc, writeS_upc, hupc]
    · rw [tick_KIN, advance_KIN, writeS_KIN, hKIN]
    · rw [tick_S, advance_S, writeS_S, blockBefore_succ (by omega) hat]

/-- `n` steps with `rst` low, none of them FIN's, move the operation on by `n` addresses. -/
theorem Operating.exists_runs {n : Nat} (h : Operating pt key a s) (hn : a + n ≤ 51)
    (hrst : ∀ j, j < n → (portsAt s j).rst = false) :
    ∃ t, runs n s = .next t ∧ Operating pt key (a + n) t ∧ t.ports = portsAt s n := by
  induction n generalizing a s with
  | zero => exact ⟨s, rfl, h, rfl⟩
  | succ n ih =>
    obtain ⟨u, hstep, hu⟩ := h.exists_step (by omega) (hrst 0 n.succ_pos)
    obtain ⟨t, hrun, ht, hports⟩ := ih hu (by omega) fun j hj =>
      portsAt_of_step hstep j ▸ hrst (j + 1) (Nat.succ_lt_succ hj)
    refine ⟨t, (runs_succ_of_step hstep).trans hrun, ?_, ?_⟩
    · rwa [Nat.add_right_comm] at ht
    · rw [hports, portsAt_of_step hstep]

/-- FIN presents the ciphertext. -/
theorem Operating.step_eq_finish (h : Operating pt key 51 s) (hrst : s.ports.rst = false) :
    step s = .next (finish (encrypt pt key) s).tick := by
  obtain ⟨hi, hp, hu, -, hS⟩ := h
  rw [blockBefore_fin] at hS
  exact step_fin hi hp hrst hu hS

/-- From an accepted START: the operation stands at address `n` after `n` steps more. -/
theorem runs_operation {n : Nat} (hi : s.Inv) (hp : s.phase = .idle) (hrst : s.ports.rst = false)
    (hs : s.ports.start = true) (hn : n ≤ 51)
    (hlow : ∀ j, 1 ≤ j → j ≤ n → (portsAt s j).rst = false) :
    ∃ t, runs (n + 1) s = .next t ∧
      Operating (blockOfPort s.ports.pt_in) (keyOfPort s.ports.key_in) n t ∧
      t.ports = portsAt s (n + 1) := by
  have hstep := step_start hi hp hrst hs
  have haccept := operating_of_accept hi hp hrst hs
  obtain ⟨t, hrun, ht, hports⟩ := haccept.exists_runs (n := n) (by omega) fun j hj =>
    portsAt_of_step hstep j ▸ hlow (j + 1) (by omega) (by omega)
  rw [Nat.zero_add] at ht
  exact ⟨t, (runs_succ_of_step hstep).trans hrun, ht, hports.trans (portsAt_of_step hstep n)⟩

/-- The 53 steps of an operation that no RESET abandons end in FIN's register transfer. -/
theorem runs_operation_fin (hi : s.Inv) (hp : s.phase = .idle) (hrst : s.ports.rst = false)
    (hs : s.ports.start = true) (hlow : ∀ j, 1 ≤ j → j ≤ 52 → (portsAt s j).rst = false) :
    ∃ t, runs 53 s = .next
      (finish (encrypt (blockOfPort s.ports.pt_in) (keyOfPort s.ports.key_in)) t).tick := by
  obtain ⟨t, hrun, ht, hports⟩ := runs_operation hi hp hrst hs (n := 51) (by omega)
    fun j h1 h51 => hlow j h1 (by omega)
  have hrst' : t.ports.rst = false := hports ▸ hlow 52 (by omega) (by omega)
  exact ⟨t, runs_succ_of_last hrun (ht.step_eq_finish hrst')⟩

end

theorem registers_tick (s : State) : s.tick.registers = s.registers := by
  simp [State.registers]

theorem view_tick (s : State) : s.tick.view = s.view := by
  simp [State.view, State.busy, State.ctOut]

theorem registers_resetRegisters (s : State) : s.resetRegisters.registers = State.reset := rfl

/-- Settles O56: the operation stands at address `j - 1` after `j` steps, which is FIN's after 52,
and a RESET there is a RESET. -/
theorem operationComputesEncrypt : Obligations.OperationComputesEncrypt := by
  intro s hi hp hrst hs
  refine ⟨fun hlow => ⟨?result, fun j h1 h52 => ?during⟩, fun j h1 h52 hlow hj => ?abandoned⟩
  case result =>
    obtain ⟨t, hrun⟩ := runs_operation_fin hi hp hrst hs hlow
    refine ⟨_, hrun, ?_⟩
    simp
  case during =>
    obtain ⟨n, rfl⟩ := Nat.exists_eq_add_of_le' h1
    obtain ⟨t, hrun, ht, -⟩ := runs_operation hi hp hrst hs (n := n) (by omega)
      fun i h1 hi => hlow i h1 (by omega)
    exact ⟨t, hrun, busy_iff.2 ht.phase, ht.inv.done_of_run ht.phase⟩
  case abandoned =>
    obtain ⟨n, rfl⟩ := Nat.exists_eq_add_of_le' h1
    obtain ⟨t, hrun, -, hports⟩ := runs_operation hi hp hrst hs (n := n) (by omega)
      fun i h1 hi => hlow i h1 (by omega)
    refine ⟨_, runs_succ_of_last hrun (step_reset (hports ▸ hj)), ?_⟩
    rw [registers_tick, registers_resetRegisters]

/-! ## START and FIN, the hold, and one operation after another -/

/-- Settles O32: FIN writes the block to `CT`, and the port shows its packing. -/
theorem finPresentsTheState : Obligations.FinPresentsTheState :=
  fun s b h hS => ⟨finish b s, packBlock b, exec_fin_of_value h hS, rfl, rfl,
    extractLsb'_packBlock b⟩

/-- Settles O33: accept unpacks the ports into `KIN` and `S`. -/
theorem startIsAcceptedWhenIdle : Obligations.StartIsAcceptedWhenIdle :=
  fun _ key pt hp hu => ⟨keyOfPort key, blockOfPort pt, exec_start_of_idle hp hu,
    fun w => by simp [keyOfPort], getElem_blockOfPort pt⟩

theorem getElem?_noSchedule {k : Nat} (hk : k < 11) : noSchedule[k]? = some none := by
  simp [noSchedule, hk]

/-- Settles O45: each step only lets time pass on the ports. -/
theorem idleCoreHolds : Obligations.IdleCoreHolds := by
  intro n
  induction n with
  | zero =>
    intro s hi hp _
    obtain ⟨-, -, hS, hKIN, hRK, -⟩ := (inv_idle hp).1 hi
    exact ⟨s, rfl, rfl, rfl, hS, hKIN, fun k hk => hRK ▸ getElem?_noSchedule hk⟩
  | succ n ih =>
    intro s hi hp hquiet
    obtain ⟨hrst, hs⟩ := hquiet 0 n.succ_pos
    obtain ⟨t, hrun, hregs, hview, hrest⟩ := ih s.tick (inv_tick.2 hi) ((tick_phase s).trans hp)
      fun j hj => hquiet (j + 1) (Nat.succ_lt_succ hj)
    exact ⟨t, (runs_succ_of_step (step_hold hi hp hrst hs)).trans hrun,
      hregs.trans (registers_tick s), hview.trans (view_tick s), hrest⟩

theorem accept_congr {s s' : State} (key pt : Port) (hr : s.resetSeen = s'.resetSeen)
    (hports : s.ports = s'.ports) (hpending : s.pending = s'.pending) :
    accept key pt s = accept key pt s' := by
  cases s
  cases s'
  cases hr
  cases hports
  cases hpending
  rfl

/-- Settles O59: the step after FIN accepts; accept overwrites or discards every register that may
differ; and the result is that of the operands. -/
theorem operationsAreIndependent : Obligations.OperationsAreIndependent := by
  refine ⟨fun s hi hp hu hrst hrst' hs' => ?backToBack,
    fun s s' hi hi' hp hp' hports hpending hrst hs => ?overwritten,
    fun s s' hi hi' hp hp' hs hs' hkey hpt hlow => ?equalOperands⟩
  case backToBack =>
    obtain ⟨-, -, -, -, hS, -⟩ := (inv_run hp).1 hi
    obtain ⟨b, hb⟩ := Option.ne_none_iff_exists'.1 hS
    have hfin := step_fin hi hp hrst hu hb
    have hports : (finish b s).tick.ports = portsAt s 1 := portsAt_of_step hfin 0
    have hstart := step_start (stepKeepsTheInvariant _ _ hi hfin) (tick_phase _)
      (hports ▸ hrst') (hports ▸ hs')
    refine ⟨_, (runs_succ_of_step hfin).trans (runs_succ_of_step hstart), ?_⟩
    simp [hports]
  case overwritten =>
    obtain ⟨hr, -⟩ := (inv_idle hp).1 hi
    obtain ⟨hr', -⟩ := (inv_idle hp').1 hi'
    rw [step_start hi hp hrst hs, step_start hi' hp' (hports ▸ hrst) (hports ▸ hs), ← hports,
      accept_congr _ _ (hr.trans hr'.symm) hports hpending]
  case equalOperands =>
    obtain ⟨t, hrun⟩ := runs_operation_fin hi hp (hlow 0 (by omega)).1 hs
      fun j _ hj => (hlow j hj).1
    obtain ⟨t', hrun'⟩ := runs_operation_fin hi' hp' (hlow 0 (by omega)).2 hs'
      fun j _ hj => (hlow j hj).2
    rw [← hkey, ← hpt] at hrun'
    refine ⟨_, _, hrun, hrun', ?_⟩
    simp [State.view, State.busy, State.ctOut]

/-! ## The pipeline -/

theorem eq_roundState {pt : Block} {rk : Vector Key 11} {X : Nat → Block}
    (h0 : X 0 = addRoundKey pt rk[0])
    (hsucc : ∀ r (hr : r < 9), X (r + 1) = middleRound (X r) rk[r + 1]) (r : Nat) (hr : r ≤ 9) :
    X r = roundState pt rk r hr := by
  induction r with
  | zero => exact h0
  | succ r ih => rw [hsucc r hr, ih (Nat.le_of_succ_le hr), roundState]

/-- Settles O24: the names stand for the states of the pipeline, one round after the other. -/
theorem encryptIsThePipeline : Obligations.EncryptIsThePipeline := by
  intro pt key X rk hrk h0 hsucc
  have hkey : ∀ k (hk : k < 11), rk k = (expand key)[k] := fun k hk => by
    have h := hrk k (Nat.le_of_lt_succ hk)
    rw [Vector.getElem?_eq_getElem hk] at h
    exact (Option.some.inj h).symm
  have hX : X 9 = roundState pt (expand key) 9 (Nat.le_refl 9) :=
    eq_roundState (hkey 0 (by omega) ▸ h0) (fun r hr =>
      hkey (r + 1) (by omega) ▸ hsucc (r + 1) (by omega) (by omega)) 9 _
  rw [hkey 10 (by omega), hX]
  rfl

/-! ## Encrypt is a bijection

The four transformations of a round are bijections. ShiftRows and MixColumns have the period 4: for
MixColumns, a byte of a column is changed by the column's sum, which each application keeps, and by
twice its sum with the next byte (`cell_mixColumns_eq_sum`). -/

theorem bijective_of_iterate_eq_self {α : Type} {f : α → α} {n : Nat}
    (h : ∀ a, f^[n + 1] a = a) : Function.Bijective f :=
  Function.bijective_iff_has_inverse.2 ⟨f^[n], h,
    fun a => (Function.iterate_succ_apply' f n a).symm.trans (h a)⟩

/-- Each row of `MixColumn` is the same sum, read from that row on around the column (R144). -/
theorem cell_mixColumns_cyclic (b : Block) (r c : Fin 4) :
    cell (mixColumns b) r c = mul2 (cell b r c) ^^^ mul3 (cell b (r + 1) c) ^^^
      (cell b (r + 2) c ^^^ cell b (r + 3) c) := by
  rw [cell_mixColumns]
  match r with
  | 0 => exact BitVec.xor_assoc ..
  | 1 | 2 | 3 => simp [mixColumn, mul1]; ac_rfl

/-- The sum of the four bytes of column `c`. -/
def columnSum (b : Block) (c : Fin 4) : Byte :=
  cell b 0 c ^^^ cell b 1 c ^^^ (cell b 2 c ^^^ cell b 3 c)

theorem columnSum_cyclic (b : Block) (r c : Fin 4) :
    columnSum b c =
      cell b r c ^^^ cell b (r + 1) c ^^^ (cell b (r + 2) c ^^^ cell b (r + 3) c) := by
  rw [columnSum]
  match r with
  | 0 => rfl
  | 1 | 2 | 3 => simp only [Fin.isValue, Fin.reduceAdd]; ac_rfl

theorem cell_mixColumns_eq_sum (b : Block) (r c : Fin 4) :
    cell (mixColumns b) r c =
      cell b r c ^^^ columnSum b c ^^^ xtime (cell b r c ^^^ cell b (r + 1) c) := by
  rw [cell_mixColumns_cyclic, columnSum_cyclic b r, xtime_xor, mul2, mul3]
  generalize cell b r c = a0, cell b (r + 1) c = a1, cell b (r + 2) c ^^^ cell b (r + 3) c = a
  calc xtime a0 ^^^ (xtime a1 ^^^ a1) ^^^ a
      = a1 ^^^ a ^^^ (xtime a0 ^^^ xtime a1) := by ac_rfl
    _ = (a0 ^^^ a0) ^^^ (a1 ^^^ a ^^^ (xtime a0 ^^^ xtime a1)) := by
        rw [LawfulXor.xor_self, zero_xor]
    _ = a0 ^^^ (a0 ^^^ a1 ^^^ a) ^^^ (xtime a0 ^^^ xtime a1) := by ac_rfl

theorem xor_cancel_common (a b t : Byte) : (a ^^^ t) ^^^ (b ^^^ t) = a ^^^ b := by
  calc (a ^^^ t) ^^^ (b ^^^ t)
      = a ^^^ b ^^^ (t ^^^ t) := by ac_rfl
    _ = a ^^^ b := by simp

/-- The column's sum falls out of the sum of two neighbours. -/
theorem cell_mixColumns_xor_next (b : Block) (r c : Fin 4) :
    cell (mixColumns b) r c ^^^ cell (mixColumns b) (r + 1) c =
      cell b r c ^^^ cell b (r + 1) c ^^^ xtime (cell b r c ^^^ cell b (r + 2) c) := by
  have hr : r + 1 + 1 = r + 2 := by rw [add_assoc]; rfl
  simp only [cell_mixColumns_eq_sum, hr, xtime_xor]
  generalize cell b r c = a0, cell b (r + 1) c = a1, cell b (r + 2) c = a2, columnSum b c = t
  calc a0 ^^^ t ^^^ (xtime a0 ^^^ xtime a1) ^^^ (a1 ^^^ t ^^^ (xtime a1 ^^^ xtime a2))
      = (a0 ^^^ a1 ^^^ (xtime a0 ^^^ xtime a2)) ^^^ (t ^^^ t) ^^^ (xtime a1 ^^^ xtime a1) := by
        ac_rfl
    _ = a0 ^^^ a1 ^^^ (xtime a0 ^^^ xtime a2) := by simp

/-- R145: each column keeps its sum. -/
theorem columnSum_mixColumns (b : Block) (c : Fin 4) :
    columnSum (mixColumns b) c = columnSum b c := by
  have h0 := cell_mixColumns_xor_next b 0 c
  have h2 := cell_mixColumns_xor_next b 2 c
  simp only [Fin.isValue, Fin.reduceAdd, zero_add] at h0 h2
  rw [columnSum, h0, h2, xor_comm (cell b 2 c) (cell b 0 c), xor_cancel_common, columnSum]

/-- Twice MixColumns adds to a byte four times its sum with the byte two rows on, so that twice more
adds the same again. -/
theorem cell_mixColumns_mixColumns (b : Block) (r c : Fin 4) :
    cell (mixColumns (mixColumns b)) r c =
      cell b r c ^^^ xtime (xtime (cell b r c ^^^ cell b (r + 2) c)) := by
  rw [cell_mixColumns_eq_sum, columnSum_mixColumns, cell_mixColumns_xor_next,
    cell_mixColumns_eq_sum, xtime_xor (cell b r c ^^^ cell b (r + 1) c)]
  simp [BitVec.xor_assoc]

theorem iterate_mixColumns_four (b : Block) : mixColumns^[4] b = b := by
  refine block_ext_cells fun r c => ?_
  have hr : r + 2 + 2 = r := by rw [add_assoc]; exact add_zero r
  show cell (mixColumns (mixColumns (mixColumns (mixColumns b)))) r c = cell b r c
  simp only [cell_mixColumns_mixColumns, hr]
  generalize cell b r c = a, cell b (r + 2) c = a'
  rw [xor_comm a' a, xor_cancel_common, xor_cancel_right]

theorem subBytes_bijective : Function.Bijective subBytes := by
  obtain ⟨inv, hleft, hright⟩ := Function.bijective_iff_has_inverse.1 sbox_bijective
  refine Function.bijective_iff_has_inverse.2 ⟨Vector.map inv, fun b => ?_, fun b => ?_⟩
  · rw [subBytes_eq_map, Vector.map_map, hleft.comp_eq_id, Vector.map_id]
  · rw [subBytes_eq_map, Vector.map_map, hright.comp_eq_id, Vector.map_id]

theorem shiftRows_bijective : Function.Bijective shiftRows :=
  bijective_of_iterate_eq_self iterate_shiftRows_four

theorem mixColumns_bijective : Function.Bijective mixColumns :=
  bijective_of_iterate_eq_self iterate_mixColumns_four

theorem addRoundKey_bijective (k : Key) : Function.Bijective fun b => addRoundKey b k :=
  Function.Involutive.bijective fun b => addRoundKey_addRoundKey b k

theorem middleRound_bijective (k : Key) : Function.Bijective fun b => middleRound b k :=
  (addRoundKey_bijective k).comp <|
    mixColumns_bijective.comp <| shiftRows_bijective.comp subBytes_bijective

theorem finalRound_bijective (k : Key) : Function.Bijective fun b => finalRound b k :=
  (addRoundKey_bijective k).comp <| shiftRows_bijective.comp subBytes_bijective

theorem roundState_bijective (rk : Vector Key 11) (r : Nat) (hr : r ≤ 9) :
    Function.Bijective fun pt => roundState pt rk r hr := by
  induction r with
  | zero => exact addRoundKey_bijective rk[0]
  | succ r ih => exact (middleRound_bijective rk[r + 1]).comp (ih (Nat.le_of_succ_le hr))

/-- Settles O25: each round is made of bijections, and `encrypt` is one round after the other. -/
theorem encryptIsABijectionForEachKey : Obligations.EncryptIsABijectionForEachKey :=
  fun key => (finalRound_bijective (expand key)[10]).comp
    (roundState_bijective (expand key) 9 (Nat.le_refl 9))

/-! ## Other inputs

An instruction does the same with the registers whatever the inputs are (`exec_withInputs`), and a
running step selects it by the registers and `rst` alone. -/

theorem select_beforeFirstReset {s : State} (hrst : s.ports.rst = false)
    (hr : s.resetSeen = false) : select s = .error .beforeFirstReset := by
  simp [select, hrst, hr]

/-- The same registers with other inputs. -/
def State.withInputs (s : State) (h : HostWord) (p : List HostWord) : State :=
  { s with ports := h, pending := p }

/-- The outcome with the next state, if there is one, changed. -/
def mapNext (f : State → State) : Out → Out
  | .next s => .next (f s)
  | .fault r => .fault r
  | .refused r => .refused r

section
variable (s : State) (h : HostWord) (p : List HostWord) (f : State → State)

theorem withInputs_of_registers_eq {s s' : State} (hregs : s.registers = s'.registers) :
    s' = s.withInputs s'.ports s'.pending :=
  calc s' = s'.registers.withInputs s'.ports s'.pending := rfl
    _ = s.withInputs s'.ports s'.pending := by rw [← hregs]; rfl

theorem inv_withInputs : (s.withInputs h p).Inv ↔ s.Inv := Iff.rfl

theorem tick_withInputs :
    (s.withInputs h p).tick = s.tick.withInputs (p.headD h) p.tail := by
  unfold State.tick
  cases p <;> cases s.pending <;> rfl

theorem atLegalUpc_withInputs (k : Out) :
    atLegalUpc (s.withInputs h p) (mapNext f k) = mapNext f (atLegalUpc s k) :=
  (apply_ite (mapNext f) (s.legalUpc = true) k (.refused .badUpc)).symm

theorem mapNext_reading {α : Type} (r : Reg) (v : Option α) (k : α → Out) :
    mapNext f (reading r v k) = reading r v fun a => mapNext f (k a) := by
  cases v <;> rfl

theorem mapNext_readingRK (k : Nat) (cont : Key → Out) :
    mapNext f (readingRK s k cont) = readingRK s k fun key => mapNext f (cont key) := by
  unfold readingRK
  cases s.RK[k]? with
  | none => rfl
  | some v => exact mapNext_reading f (.RK k) v cont

theorem mapNext_readingRcon (a : Nat) (cont : Word → Out) :
    mapNext f (readingRcon a cont) = readingRcon a fun w => mapNext f (cont w) := by
  unfold readingRcon
  cases romRcon a <;> rfl

theorem exec_withInputs (i : Instr) :
    exec i (s.withInputs h p) = mapNext (·.withInputs h p) (exec i s) := by
  cases i with
  | kld | sub | shr | mix | fin =>
    refine Eq.trans ?_ (atLegalUpc_withInputs s h p _ _)
    rw [mapNext_reading]
    rfl
  | kexp k =>
    refine Eq.trans ?_ (atLegalUpc_withInputs s h p _ _)
    rw [apply_ite (mapNext _), mapNext_readingRcon]
    simp only [mapNext_readingRK]
    rfl
  | ark k =>
    refine Eq.trans ?_ (atLegalUpc_withInputs s h p _ _)
    simp only [mapNext_readingRK, mapNext_reading]
    rfl
  | reset => rfl
  | start key pt =>
    refine Eq.trans ?_ (atLegalUpc_withInputs s h p _ _)
    obtain ⟨S, KIN, RK, CT, phase, _⟩ := s
    cases phase <;> rfl

theorem afterExec_mapNext_withInputs (o : Out) :
    afterExec (mapNext (·.withInputs h p) o) =
      mapNext (·.withInputs (p.headD h) p.tail) (afterExec o) := by
  cases o with
  | next u => exact congrArg _ (tick_withInputs u h p)
  | fault r => rfl
  | refused r => rfl

end

section
variable {s : State} {h : HostWord} {p : List HostWord} (hrst : s.ports.rst = false)
  (hh : h.rst = false) (hp : s.phase = .run)
include hrst hh hp

theorem select_withInputs_of_run : select (s.withInputs h p) = select s := by
  have hp' : (s.withInputs h p).phase = .run := hp
  have hh' : (s.withInputs h p).ports.rst = false := hh
  cases hr : s.resetSeen with
  | true =>
    have hr' : (s.withInputs h p).resetSeen = true := hr
    rw [select_run hrst hr hp, select_run hh' hr' hp']
    rfl
  | false =>
    have hr' : (s.withInputs h p).resetSeen = false := hr
    rw [select_beforeFirstReset hrst hr, select_beforeFirstReset hh' hr']

/-- A running step does the same whatever the inputs are, and then shows the next levels (R163). -/
theorem step_withInputs_of_run : step (s.withInputs h p) =
    mapNext (·.withInputs (p.headD h) p.tail) (step s) := by
  have hsel := select_withInputs_of_run (p := p) hrst hh hp
  cases hs : select s with
  | error r =>
    rw [step_of_error hs, step_of_error (hsel.trans hs)]
    rfl
  | ok o =>
    cases o with
    | none =>
      rw [step_of_hold hs, step_of_hold (hsel.trans hs), tick_withInputs]
      rfl
    | some i =>
      rw [step_of_select hs, step_of_select (hsel.trans hs), exec_withInputs,
        afterExec_mapNext_withInputs]

end

/-- Settles O46: equal registers are one state with other inputs. -/
theorem startPortsAreNotReadWhileRunning : Obligations.StartPortsAreNotReadWhileRunning := by
  intro s s' hregs hp hrst hrst'
  have hstep : step s' = mapNext (·.withInputs s'.tick.ports s'.tick.pending) (step s) := by
    rw [tick_ports, tick_pending, ← step_withInputs_of_run hrst hrst' hp,
      ← withInputs_of_registers_eq hregs]
  refine ⟨fun t ht => ?_, fun r hr => ?_, fun r hr => ?_⟩
  · rw [ht] at hstep
    exact ⟨_, hstep, rfl, rfl, rfl⟩
  · rw [hstep, hr]; rfl
  · rw [hstep, hr]; rfl

/-! ## Placed words -/

theorem romUprog_of_uprogAddress {a : Nat} {u : UopWord} (h : uprogAddress u = some a) :
    romUprog a = some u := by
  obtain ⟨ha, hu, -⟩ := List.findIdx?_eq_some_iff_getElem.1 h
  rw [romUprog, ← eq_of_beq hu]
  exact Vector.getElem?_eq_getElem ha

/-- UPROG holds each of the 26 legal words. -/
theorem mem_uprog_of_decodeUop :
    ∀ u : UopWord, (decodeUop u).toOption.isSome = true → u ∈ uprogTable.toList := by decide

theorem exists_uprogAddress {u : UopWord} {i : Instr} (h : decodeUop u = .ok i) :
    ∃ a, uprogAddress u = some a := by
  have hmem : u ∈ uprogTable.toList := mem_uprog_of_decodeUop u (by rw [h]; rfl)
  refine Option.isSome_iff_exists.1 ?_
  rw [uprogAddress, List.findIdx?_isSome]
  exact List.any_eq_true.2 ⟨u, hmem, beq_self_eq_true u⟩

theorem le_of_romUprog {a : Nat} {u : UopWord} (h : romUprog a = some u) : a ≤ 51 := by
  obtain ⟨ha, -⟩ := Vector.getElem?_eq_some_iff.1 h
  omega

theorem placeWord_host_of_rst (s : State) {w : HostWord} (hrst : w.rst = true) :
    s.placeWord (.host w) = s.withInputs w s.pending := if_pos hrst

theorem placeWord_host_of_not_rst (s : State) {w : HostWord} (hrst : w.rst = false) :
    s.placeWord (.host w) = s.placeIdle.withInputs w s.placeIdle.pending :=
  if_neg (Bool.eq_false_iff.1 hrst)

theorem placeWord_uop (s : State) {u : UopWord} {a : Nat} (h : uprogAddress u = some a) :
    s.placeWord (.uop u) = s.placeAt a := by
  rw [State.placeWord, h]

@[simp] theorem placeIdle_phase (s : State) : s.placeIdle.phase = .idle := by
  unfold State.placeIdle
  cases s.phase <;> rfl

@[simp] theorem placeIdle_upc (s : State) : s.placeIdle.upc = 0 := by
  unfold State.placeIdle
  cases s.phase <;> rfl

@[simp] theorem placeIdle_resetSeen (s : State) : s.placeIdle.resetSeen = true := by
  unfold State.placeIdle
  cases s.phase <;> rfl

theorem start_of_decodeHost {w : HostWord} {i : Instr} (h : decodeHost w = .ok i)
    (hrst : w.rst = false) : w.start = true := by
  by_contra hs
  rw [decodeHost_of_quiet hrst (Bool.eq_false_iff.2 hs)] at h
  cases h

theorem step_placeWord_uop {u : UopWord} {i : Instr} (s : State) (h : decodeUop u = .ok i) :
    step (s.placeWord (.uop u)) = afterExec (exec i (s.placeWord (.uop u))) := by
  obtain ⟨a, ha⟩ := exists_uprogAddress h
  have hu := romUprog_of_uprogAddress ha
  have ha51 := le_of_romUprog hu
  have hupc : (s.placeAt a).upc.toNat = a := Nat.mod_eq_of_lt (by omega)
  rw [placeWord_uop s ha]
  exact step_of_uopAt rfl rfl rfl (hupc.symm ▸ uopAt_of_decodeUop hu h)

theorem step_placeWord_host {w : HostWord} {i : Instr} (s : State) (h : decodeHost w = .ok i) :
    step (s.placeWord (.host w)) = afterExec (exec i (s.placeWord (.host w))) := by
  cases hrst : w.rst with
  | true =>
    rw [decodeHost_of_rst hrst] at h
    cases h
    rw [placeWord_host_of_rst s hrst]
    exact step_of_select (select_rst hrst)
  | false =>
    have hs := start_of_decodeHost h hrst
    rw [decodeHost_of_start hrst hs] at h
    cases h
    rw [placeWord_host_of_not_rst s hrst]
    exact step_idle_start hrst (placeIdle_resetSeen s) (placeIdle_phase s) (placeIdle_upc s) hs

theorem step_placeWord {m : MachineWord} {i : Instr} (s : State) (h : decode m = .ok i) :
    step (s.placeWord m) = afterExec (exec i (s.placeWord m)) := by
  cases m with
  | uop u => exact step_placeWord_uop s h
  | host w => exact step_placeWord_host s h

theorem inv_placeWord_reset {m : MachineWord} {i : Instr} (h : decode m = .ok i) :
    (State.reset.placeWord m).Inv := by
  cases m with
  | uop u =>
    obtain ⟨a, ha⟩ := exists_uprogAddress h
    rw [placeWord_uop _ ha]
    exact placeAt_inv _ (le_of_romUprog (romUprog_of_uprogAddress ha))
  | host w =>
    cases hrst : w.rst with
    | true =>
      rw [placeWord_host_of_rst _ hrst]
      exact (inv_withInputs ..).2 resetStateMeetsTheInvariant
    | false =>
      rw [placeWord_host_of_not_rst _ hrst]
      exact (inv_withInputs ..).2 resetStateMeetsTheInvariant

theorem exists_tableWord {w : Nat} {i : Instr} (h : decodeTableWord 8 w = some i) :
    ∃ m, decode m = .ok i ∧ ∀ s : State, s.withFetchWord 8 w = s.placeWord m := by
  obtain ⟨m, hm, hi⟩ := Option.bind_eq_some_iff.1 h
  refine ⟨m, ?_, fun s => ?_⟩
  · cases hd : decode m with
    | ok j => rw [hd] at hi; cases hi; rfl
    | error e => rw [hd] at hi; cases hi
  · rw [State.withFetchWord, State.placeTableWord, hm]

/-- Settles O48: the step runs the placed word, and from reset the placed state meets the invariant,
so that no step from it stops. -/
theorem placedWordIsRunByTheNextStep : Obligations.PlacedWordIsRunByTheNextStep := by
  intro w i h
  obtain ⟨m, hm, hplace⟩ := exists_tableWord h
  simp only [hplace]
  exact ⟨fun s => step_placeWord s hm, resetCoreNeverStops _ (inv_placeWord_reset hm)⟩

end Sys2Proof.Machine
end

section
/-! SUPPORT. Proofs for spec file 60_exceptions.md: at an illegal sequencer position every
instruction but RESET asks for the position before anything else, and the selection of a step ends
at the position in both phases (R23, R196 (b)). -/

namespace Sys2Proof.Machine

section
variable {s : State}

theorem legalUpc_eq_false_iff : s.legalUpc = false ↔
    (s.phase = .run ∧ 52 ≤ s.upc.toNat) ∨ (s.phase = .idle ∧ s.upc ≠ 0) := by
  cases hp : s.phase with
  | idle => simp [← Bool.not_eq_true, legalUpc_idle hp]
  | run => simp [← Bool.not_eq_true, legalUpc_run hp]

theorem exec_of_illegalUpc (h : s.legalUpc = false) {i : Instr} (hi : i ≠ .reset) :
    exec i s = .refused .badUpc := by
  cases i with
  | reset => exact absurd rfl hi
  | kld | kexp _ | ark _ | sub | shr | mix | fin | start _ _ => exact atLegalUpc_illegal h

theorem fetchUop_of_romUprog_eq_none (h : romUprog s.upc.toNat = none) :
    fetchUop s = .error .badUpc := by
  simp [fetchUop, h]

/-- A running core finds no word at the position; an idle core is asked for the position itself. -/
theorem select_of_illegalUpc (hrst : s.ports.rst = false) (hr : s.resetSeen = true)
    (h : s.legalUpc = false) : select s = .error .badUpc := by
  cases hp : s.phase with
  | idle => simp [select, hrst, hr, hp, h]
  | run =>
    have hu : 52 ≤ s.upc.toNat := Nat.not_lt.1 (mt (legalUpc_run hp).2 (by simp [h]))
    rw [select_run hrst hr hp, fetchUop_of_romUprog_eq_none (romUprog_eq_none hu)]
    rfl

end

/-- Settles O38: the two illegal positions are those that `legalUpc` excludes, and there both the
instruction and the selection of a step are refused. -/
theorem illegalPositionIsRefused : Obligations.IllegalPositionIsRefused := by
  intro s hs
  have h : s.legalUpc = false := legalUpc_eq_false_iff.2 hs
  exact ⟨fun _ hi => exec_of_illegalUpc h hi,
    fun hrst hr => step_of_error (select_of_illegalUpc hrst hr h)⟩

end Sys2Proof.Machine
end

section
/-! SUPPORT. Proofs for spec file 70_reset_and_hazards.md: RESET from any state (R210, R211), before
the first RESET (R212), and the end of every operation (R220). -/

namespace Sys2Proof.Machine

/-- A run leaves on the ports the levels that the host drives after its steps (R27). -/
theorem ports_of_runs {n : Nat} {s t : State} (h : runs n s = .next t) : t.ports = portsAt s n := by
  induction n generalizing s with
  | zero =>
    cases h
    rfl
  | succ n ih =>
    obtain ⟨u, hstep, hrun⟩ := exists_step_of_runs_succ h
    exact (ih hrun).trans (portsAt_of_step hstep n)

/-! ## Every operation ends -/

section
variable {s : State}

/-- Before FIN a step with `rst` low moves a running core on by one address. -/
theorem exists_step_before_fin (hi : s.Inv) (hp : s.phase = .run) (hrst : s.ports.rst = false)
    (hu : s.upc.toNat < 51) :
    ∃ t, step s = .next t ∧ t.phase = .run ∧ t.upc.toNat = s.upc.toNat + 1 := by
  obtain ⟨t, hstep⟩ := resetCoreNeverStops s hi
  refine ⟨t, hstep, ?_⟩
  obtain ⟨h, -⟩ | ⟨-, h, -⟩ | ⟨-, h, -⟩ | ⟨-, -, -, hmove⟩ | ⟨-, -, h, -⟩ :=
    sequencerMoves s t hi hstep
  · simp [hrst] at h
  · simp [hp] at h
  · simp [hp] at h
  · exact hmove
  · omega

/-- FIN's step returns the core to idle with a result. -/
theorem exists_step_at_fin (hi : s.Inv) (hp : s.phase = .run) (hrst : s.ports.rst = false)
    (hu : s.upc.toNat = 51) :
    ∃ t, step s = .next t ∧ t.phase = .idle ∧ t.upc = 0 ∧ t.done = true := by
  obtain ⟨-, -, -, -, hS, -⟩ := (inv_run hp).1 hi
  obtain ⟨b, hb⟩ := Option.ne_none_iff_exists'.1 hS
  exact ⟨_, step_fin hi hp hrst hu hb, tick_phase _, tick_upc _, tick_done _⟩

/-- `n` steps with `rst` low, none of them FIN's, move a running core on by `n` addresses. -/
theorem exists_runs_before_fin {n : Nat} (hi : s.Inv) (hp : s.phase = .run)
    (hn : s.upc.toNat + n ≤ 51) (hrst : ∀ j, j < n → (portsAt s j).rst = false) :
    ∃ t, runs n s = .next t ∧ t.Inv ∧ t.phase = .run ∧ t.upc.toNat = s.upc.toNat + n := by
  induction n with
  | zero => exact ⟨s, rfl, hi, hp, rfl⟩
  | succ n ih =>
    obtain ⟨u, hrun, hui, hup, huu⟩ := ih (by omega) fun j hj => hrst j (by omega)
    obtain ⟨t, hstep, htp, htu⟩ :=
      exists_step_before_fin hui hup (ports_of_runs hrun ▸ hrst n n.lt_succ_self) (by omega)
    exact ⟨t, runs_succ_of_last hrun hstep, stepKeepsTheInvariant _ _ hui hstep, htp, by omega⟩

end

/-- Settles O58: the position reaches 51 by one address a step, and the step there is FIN's. -/
theorem everyOperationEnds : Obligations.EveryOperationEnds := by
  intro s hi hp hrst
  obtain ⟨-, h51, -⟩ := (inv_run hp).1 hi
  refine ⟨fun j hj => ?during, ?last⟩
  case during =>
    obtain ⟨t, hrun, -, htp, htu⟩ :=
      exists_runs_before_fin (n := j) hi hp (by omega) fun i hij => hrst i (by omega)
    exact ⟨t, hrun, htp, htu⟩
  case last =>
    obtain ⟨n, hn⟩ : ∃ n, 52 - s.upc.toNat = n + 1 := ⟨51 - s.upc.toNat, by omega⟩
    rw [hn] at hrst ⊢
    obtain ⟨u, hrun, hui, hup, huu⟩ :=
      exists_runs_before_fin (n := n) hi hp (by omega) fun j hj => hrst j (by omega)
    obtain ⟨t, hstep, ht⟩ :=
      exists_step_at_fin hui hup (ports_of_runs hrun ▸ hrst n n.lt_succ_self) (by omega)
    exact ⟨t, runs_succ_of_last hrun hstep, ht⟩

/-! ## RESET -/

/-- A state with the registers of R32 meets the invariant, idle and without a result, whatever its
inputs are. -/
theorem of_registers_eq_reset {s : State} (h : s.registers = State.reset) :
    s.Inv ∧ s.phase = .idle ∧ s.view = ⟨false, false, none⟩ := by
  rw [withInputs_of_registers_eq (s := State.reset) (s' := s) h.symm]
  exact ⟨resetStateMeetsTheInvariant, rfl, rfl⟩

theorem registers_resetRegisters_tick (s : State) :
    s.resetRegisters.tick.registers = State.reset :=
  (registers_tick _).trans (registers_resetRegisters s)

/-- While `rst` stays high every step is RESET's, so the last one leaves the registers of R32. -/
theorem exists_runs_of_rst {n : Nat} {s : State} (hrst : ∀ j, j ≤ n → (portsAt s j).rst = true) :
    ∃ t, runs (n + 1) s = .next t ∧ t.registers = State.reset := by
  induction n with
  | zero =>
    exact ⟨_, runs_succ_of_step (step_reset (hrst 0 le_rfl)), registers_resetRegisters_tick s⟩
  | succ n ih =>
    obtain ⟨u, hrun, -⟩ := ih fun j hj => hrst j (by omega)
    have hu : u.ports.rst = true := ports_of_runs hrun ▸ hrst (n + 1) le_rfl
    exact ⟨_, runs_succ_of_last hrun (step_reset hu), registers_resetRegisters_tick u⟩

/-- Settles O47: the steps with `rst` high end in the registers of R32, which are an idle core's, so
a START on the next ports is accepted. -/
theorem resetStepLeavesTheResetState : Obligations.ResetStepLeavesTheResetState := by
  intro n s hrst
  obtain ⟨t, hrun, hregs⟩ := exists_runs_of_rst hrst
  obtain ⟨hi, hp, hview⟩ := of_registers_eq_reset hregs
  refine ⟨⟨t, hrun, hregs, hview⟩, fun hlow hstart => ?accepted⟩
  rw [← ports_of_runs hrun] at hlow hstart ⊢
  exact ⟨_, runs_succ_of_last hrun (step_start hi hp hlow hstart), tick_phase _, tick_upc _,
    tick_KIN _, tick_S _⟩

/-- Settles O57: RESET has the same transfer at every position, and a running core's `done` is 0. -/
theorem resetAbandonsTheOperation : Obligations.ResetAbandonsTheOperation := by
  refine fun s hi => ⟨fun hrst => ?abandoned, fun hp => ?noResult⟩
  case abandoned =>
    exact ⟨_, step_reset hrst, tick_done _, tick_CT _, tick_S _, tick_phase _⟩
  case noResult =>
    simp [State.view, State.ctOut, busy_iff.2 hp, hi.done_of_run hp]

/-- Settles O35: RESET's transfer reads no register. -/
theorem resetDiscardsEverything : Obligations.ResetDiscardsEverything :=
  fun s => ⟨s.resetRegisters, exec_reset_eq s, rfl, rfl, fun _ hk => getElem?_noSchedule hk⟩

/-- Settles O44: the selection asks for `rst` first and then for a RESET in the past. -/
theorem onlyResetBeforeTheFirstReset : Obligations.OnlyResetBeforeTheFirstReset :=
  fun s hr => ⟨fun hrst => step_of_error (select_beforeFirstReset hrst hr),
    fun hrst => ⟨_, step_reset hrst, registers_resetRegisters_tick s⟩⟩

end Sys2Proof.Machine
end
